-- ==== Sys2Proof/Word.lean ====
section
/-! DEFINITION. The word types of the block: 16-bit data (timer counts, intervals, lengths, store units;
spec 00_scope R8 parameter `W`, 20_memory R61) and 32-bit event words (30_encoding R80). -/

namespace Sys2Proof

/-- A 16-bit unsigned quantity: a timer count, an interval, a length, one unit of the Pulse Store (R8 `W`, R61). -/
abbrev Word := BitVec 16

/-- One 32-bit event word (R80). -/
abbrev EventWord := BitVec 32

end Sys2Proof
end

