-- ==== Sys2Proof/Config.lean ====
section
/-! DEFINITION. The implementation parameters of spec 00_scope R8, each a field of `Config`, and the bounds the spec puts on
them (R8, R9, 20_memory R63). -/

namespace Sys2Proof

/-- The parameters of 00_scope R8. The defaults are the "value" column of R8's table; `nkeys` is OPEN there and 16 is the
default the table names (DESIGN CHOICE, log entry 2). No rule depends on the last four (R215; log entry 12). -/
structure Config where
  /-- `W`: bits of the timer count, of an interval and of a length; the rules fix 16 (R12, R80; log entry 18). -/
  w : Nat := 16
  /-- `CAP`: the greatest number of intervals one slot holds. -/
  cap : Nat := 255
  /-- `PS_STRIDE`: units between the first units of consecutive slots. -/
  psStride : Nat := 258
  /-- `PS_UNIT`: bits of the addressable unit of the Pulse Store; the rules fix one 16-bit word (R61; log entry 18). -/
  psUnit : Nat := 16
  /-- `PS_BASE`: unit address of slot 0. -/
  psBase : Nat := 0
  /-- `NMODES`: number of appliance modes. -/
  nmodes : Nat := 3
  /-- `MODE_DEFAULT`: the mode after reset. -/
  modeDefault : Nat := 0
  /-- `NKEYS`: number of keypad positions, the slots of one mode. -/
  nkeys : Nat := 16
  /-- `ENV_INIT`: output-enable polarity during the first envelope period. -/
  envInit : Bool := false
  /-- `CARRIER_HZ`: "about 38 kHz". -/
  carrierHz : Nat := 38000
  /-- `CARRIER_DUTY`, in percent. -/
  carrierDuty : Nat := 25
  /-- `TICK_HZ`: OPEN; `none` where the instance does not fix it. -/
  tickHz : Option Nat := none
  /-- `SETTLE_TICKS`: OPEN; `none` where the instance does not fix it. -/
  settleTicks : Option Nat := none
  deriving DecidableEq, Repr

/-- The instance with the values of R8's table. -/
def Config.default : Config := {}

/-- `NSLOTS = NMODES * NKEYS` (R9). -/
def Config.nslots (c : Config) : Nat := c.nmodes * c.nkeys

/-- The first unit address after the store: `PS_BASE + NSLOTS * PS_STRIDE` (R9, R73). -/
def Config.storeEnd (c : Config) : Nat := c.psBase + c.nslots * c.psStride

/-- The bounds the spec puts on the parameters: R8's table for CAP, NMODES and NKEYS, R21 for MODE_DEFAULT as a mode,
`CAP + 1 ≤ PS_STRIDE` (R63), and the 16 bits that R12, R13, R61 and R80 give `Word` (log entry 18). -/
abbrev Config.Ok (c : Config) : Prop :=
  1 ≤ c.cap ∧ c.cap ≤ 65535 ∧ c.cap + 1 ≤ c.psStride ∧ 1 ≤ c.nmodes ∧ c.modeDefault < c.nmodes ∧
    1 ≤ c.nkeys ∧ c.nkeys ≤ 65536 ∧ c.w = 16 ∧ c.psUnit = 16

/-- The free values: what the `n`-th read of an element that holds no value gives. It has no body, so no claim can rest on
what it is (R46: "a model must not give it a value a claim could rest on"; log entry 3). -/
opaque Config.freeValue : Nat → Nat

end Sys2Proof
end

