-- ==== Sys2Proof/Syntax.lean ====
section
/-! DEFINITION. The closed set of events the block reacts to (spec 00_scope R2, 30_encoding R83): its instruction set,
one constructor per row of opcode_table.json, and the agent that takes each event's step (R19, R178). -/

namespace Sys2Proof

/-- An event: one stimulus delivered to the block, one atomic step (R2, R17, R171). -/
inductive Instr where
  /-- `POR`: power-on reset (R161). -/
  | por
  /-- `EDGE cnt`: capture event; `cnt` is the timer count latched at the edge (R103, R81). -/
  | edge (cnt : Word)
  /-- `ENV`: envelope-period-elapsed interrupt (R123). -/
  | env
  /-- `KEY k`: raw edge of keypad position `k` (R140, R81). -/
  | key (k : Word)
  /-- `COPY`: raw edge of the copy-toggle control button (R141). -/
  | copy
  /-- `OK`: raw edge of the ok/cancel control button (R142). -/
  | ok
  /-- `MODE`: raw edge of the mode button (R144). -/
  | mode
  /-- `SETTLE`: the settle timer's time-out (R137). -/
  | settle
  /-- `TMO`: capture stop request (R104). -/
  | tmo
  /-- `SLEEP`: the main flow re-enters its low-power wait (R160). -/
  | sleep
  deriving DecidableEq, Repr

/-- The two agents that step the block (R19, R178). -/
inductive Agent where
  /-- Interrupt context: one handler run to completion. -/
  | dispatcher
  /-- The sleeping main control loop. -/
  | mainFlow
  deriving DecidableEq, Repr

/-- Which agent takes the event's step: the main flow's only step is `SLEEP` (R19). -/
def Instr.agent : Instr → Agent
  | .por => .dispatcher
  | .edge _ => .dispatcher
  | .env => .dispatcher
  | .key _ => .dispatcher
  | .copy => .dispatcher
  | .ok => .dispatcher
  | .mode => .dispatcher
  | .settle => .dispatcher
  | .tmo => .dispatcher
  | .sleep => .mainFlow

/-- The raw button edges: keypad, two control buttons, mode button (R17, R136, R172). -/
def Instr.isButton : Instr → Bool
  | .por => false
  | .edge _ => false
  | .env => false
  | .key _ => true
  | .copy => true
  | .ok => true
  | .mode => true
  | .settle => false
  | .tmo => false
  | .sleep => false

end Sys2Proof
end

