-- ==== Sys2Proof/WellFormed.lean ====
section
/-! DEFINITION. The operand constraints of spec 30_encoding R83 and R88: `KEY k` needs `k < NKEYS`; no other event has one. -/

namespace Sys2Proof

/-- The operand constraint column of R83, for the instance `c`. -/
def wellFormed (c : Config) : Instr → Bool
  | .por => true
  | .edge _ => true
  | .env => true
  | .key k => decide (k.toNat < c.nkeys)
  | .copy => true
  | .ok => true
  | .mode => true
  | .settle => true
  | .tmo => true
  | .sleep => true

/-- The event's operand meets its row's constraint (R83, R88). -/
abbrev WellFormed (c : Config) (i : Instr) : Prop := wellFormed c i = true

end Sys2Proof
end

