-- ==== Sys2Proof/Decode.lean ====
section
/-! DEFINITION. The event encoding of spec 30_encoding: the one format `EV` (R80), the opcode map (R83), the refused words
(R88), an encoder written from the same table, and `decodeTableWord` for the host. -/

namespace Sys2Proof

/-- Why a word is not an event: the four refusal names of R88. -/
inductive DecodeReject where
  /-- `reserved_opcode`: `op` is 0x00 or 0x0B .. 0xFF. -/
  | reservedOpcode
  /-- `nonzero_reserved_bits`: the field `zero` is not 0x00. -/
  | nonzeroReservedBits
  /-- `nonzero_operand`: an event without an operand has `imm16 ≠ 0`. -/
  | nonzeroOperand
  /-- `key_out_of_range`: `KEY k` with `k ≥ NKEYS`. -/
  | keyOutOfRange
  deriving DecidableEq, Repr

/-- `op = w[31:24]` (R80). -/
def opField (w : EventWord) : BitVec 8 := w.extractLsb' 24 8

/-- `zero = w[23:16]` (R80). -/
def zeroField (w : EventWord) : BitVec 8 := w.extractLsb' 16 8

/-- `imm16 = w[15:0]` (R80). -/
def immField (w : EventWord) : Word := w.extractLsb' 0 16

/-- A row with an operand: `zero` must be 0, then the operand is read (R80, R81). -/
def decodeWithOperand (w : EventWord) (f : Word → Except DecodeReject Instr) : Except DecodeReject Instr :=
  if zeroField w = 0 then f (immField w) else .error .nonzeroReservedBits

/-- A row without an operand: `zero` and `imm16` must be 0 (R80, R88). -/
def decodePlain (w : EventWord) (i : Instr) : Except DecodeReject Instr :=
  decodeWithOperand w fun imm => if imm = 0 then .ok i else .error .nonzeroOperand

/-- The decoder: total on every word, refusing by name (R83, R88). Where a word breaks several conditions the name is that of
the first of opcode, reserved bits, operand (DESIGN CHOICE, log entry 7). -/
def decode (c : Config) (w : EventWord) : Except DecodeReject Instr :=
  match (opField w).toNat with
  | 0x01 => decodePlain w .por
  | 0x02 => decodeWithOperand w fun cnt => .ok (.edge cnt)
  | 0x03 => decodePlain w .env
  | 0x04 => decodeWithOperand w fun k => if k.toNat < c.nkeys then .ok (.key k) else .error .keyOutOfRange
  | 0x05 => decodePlain w .copy
  | 0x06 => decodePlain w .ok
  | 0x07 => decodePlain w .mode
  | 0x08 => decodePlain w .settle
  | 0x09 => decodePlain w .tmo
  | 0x0A => decodePlain w .sleep
  | _ => .error .reservedOpcode

/-- The word `{op, 0x00, imm16}` (R80, R86). -/
def eventWord (op : BitVec 8) (imm : Word) : EventWord := op ++ 0#8 ++ imm

/-- The `op` column of R83. -/
def opcodeOf : Instr → BitVec 8
  | .por => 0x01
  | .edge _ => 0x02
  | .env => 0x03
  | .key _ => 0x04
  | .copy => 0x05
  | .ok => 0x06
  | .mode => 0x07
  | .settle => 0x08
  | .tmo => 0x09
  | .sleep => 0x0A

/-- The `imm16` of an event: its operand, or 0 (R81). -/
def operandOf : Instr → Word
  | .por => 0
  | .edge cnt => cnt
  | .env => 0
  | .key k => k
  | .copy => 0
  | .ok => 0
  | .mode => 0
  | .settle => 0
  | .tmo => 0
  | .sleep => 0

/-- The encoder (R80, R83). -/
def encode (i : Instr) : EventWord := eventWord (opcodeOf i) (operandOf i)

/-- The `match` column of R83, the row's fixed bits written as the table writes them. -/
def rowMatch : Instr → EventWord
  | .por => 0x01000000
  | .edge _ => 0x02000000
  | .env => 0x03000000
  | .key _ => 0x04000000
  | .copy => 0x05000000
  | .ok => 0x06000000
  | .mode => 0x07000000
  | .settle => 0x08000000
  | .tmo => 0x09000000
  | .sleep => 0x0A000000

/-- The `mask` column of R83. -/
def rowMask : Instr → EventWord
  | .por => 0xFFFFFFFF
  | .edge _ => 0xFFFF0000
  | .env => 0xFFFFFFFF
  | .key _ => 0xFFFF0000
  | .copy => 0xFFFFFFFF
  | .ok => 0xFFFFFFFF
  | .mode => 0xFFFFFFFF
  | .settle => 0xFFFFFFFF
  | .tmo => 0xFFFFFFFF
  | .sleep => 0xFFFFFFFF

/-- What the decoder reads, in the default instance, from an opcode-table row's bits `w` (bit 0 the least significant);
the bits above `nbits` are 0. The block's event word is one 32-bit word with no byte order (R72, R80). -/
def decodeTableWord (nbits w : Nat) : Option Instr :=
  match decode Config.default (BitVec.ofNat 32 (w % 2 ^ nbits)) with
  | .ok i => some i
  | .error _ => none

end Sys2Proof
end

