-- ==== Sys2Proof/Machine/State.lean ====
section
/-! DEFINITION. The state of the block: the elements S1 to S21 of spec 10_state (R20 to R41), one field each, beside the
parameters and the event stream; the reasons a step can stop; the state after reset (R46, R47). -/

namespace Sys2Proof.Machine

/-- S3 `ARB`, the arbiter's state (R23). -/
inductive Arb where
  | idle
  | recording
  | playing
  | modeDisplay
  deriving DecidableEq, Repr

/-- S4 `ENG`, the tag of the engine state (R24). -/
inductive Eng where
  | idle
  | recording
  | playing
  deriving DecidableEq, Repr

/-- S11 `OWNER`, the engine that owns the shared timer (R31). -/
inductive Owner where
  | nobody
  | capture
  | playback
  deriving DecidableEq, Repr

/-- S16 `LATCH`, the Debounce Latch; `pressed` also says that the settle timer is armed (R36, R44). -/
inductive Latch where
  | ready
  | pressed
  deriving DecidableEq, Repr

/-- S21 `DISP`, a request made of the display collaborator (R41). -/
inductive DispReq where
  /-- `DISP_MODE(m)`: render the name of mode `m`. -/
  | modeName (m : Nat)
  /-- `DISP_COPY`: the fixed indicator of copy mode. -/
  | copyMode
  /-- `DISP_NOCODE`: the "no code" indicator. -/
  | noCode
  deriving DecidableEq, Repr

/-- A slot reference `slot(m, k)` (R15, R25). -/
structure SlotRef where
  m : Nat
  k : Nat
  deriving DecidableEq, Repr

/-- The Pulse Store's units as (unit address, unit) pairs (R60, R61). A unit is one 16-bit word and is never split into
bytes (R72), so an entry is not a `Host.Cell` (log entry 5). The canonical form is `Memory.wf` in Machine/Ops.lean. -/
abbrev Memory := List (Nat × Word)

/-- The fault that R56 and U8 call a read of an element that holds no value, by element. It says that "the model, not the
block, is wrong" (R56), so it is reported in `State.readFaults` and the event goes on with a free value (log entry 3). -/
inductive ReadFault where
  /-- Raised where `SLOT` is read: ENV, and the capture completion in EDGE, TMO, COPY and OK. Safe. -/
  | slot
  /-- Raised where `ECNT` is read: EDGE, and the capture completion in TMO, COPY and OK. Safe. -/
  | ecnt
  /-- Raised where `CUR` is read: ENV. Safe. -/
  | cur
  /-- Raised where `OLDC` is read: EDGE. Safe. -/
  | oldc
  /-- Raised where `RBUF[i]` is read: the capture completion in EDGE, TMO, COPY and OK. Safe. -/
  | rbuf (i : Nat)
  deriving DecidableEq, Repr

/-- The whole state. S1 to S21 are the spec's elements (R20); `none` in a data register or in `disp` is the spec's own state
"holds no value" (R25 to R30, R46, R161), and a read of it is reported and gives a free value (log entry 3).
`cfg`, `stream`, `fresh` and `readFaults` are the model's own (log entries 1, 2, 3). -/
structure State where
  /-- The parameters of 00_scope R8; no event writes them. -/
  cfg : Config
  /-- The event words not yet delivered, the next one first (R43). -/
  stream : List EventWord
  /-- How many free values have been taken; `Config.freeValue` at this number is the next one (log entry 3). -/
  fresh : Nat
  /-- The reads of an element that held no value, in order (R56, U8; log entry 3). No run makes one. -/
  readFaults : List ReadFault
  /-- S1 `MODE` (R21). -/
  mode : Nat
  /-- S2 `COPY` (R22). -/
  copy : Bool
  /-- S3 `ARB` (R23). -/
  arb : Arb
  /-- S4 `ENG` (R24). -/
  eng : Eng
  /-- S5 `SLOT` (R25). -/
  slot : Option SlotRef
  /-- S6 `ECNT` (R26). -/
  ecnt : Option Word
  /-- S7 `CUR` (R27). -/
  cur : Option Word
  /-- S8 `OLDC` (R28). -/
  oldc : Option Word
  /-- S9 `RBUF[0 .. CAP-1]` (R29). -/
  rbuf : List (Option Word)
  /-- S10 `ENVP` (R30). -/
  envp : Option Word
  /-- S11 `OWNER` (R31). -/
  owner : Owner
  /-- S12 `CAPARM` (R32). -/
  caparm : Bool
  /-- S13 `CARR` (R33). -/
  carr : Bool
  /-- S14 `ENVEN` (R34). -/
  enven : Bool
  /-- S15 `OUTEN` (R35). -/
  outen : Bool
  /-- S16 `LATCH` (R36). -/
  latch : Latch
  /-- S17 `BTNIE` (R37). -/
  btnie : Bool
  /-- S18 `WAKE` (R38). -/
  wake : Bool
  /-- S19 `NVMWP` (R39). -/
  nvmwp : Bool
  /-- S20 `PS` (R40). -/
  ps : Memory
  /-- S21 `DISP` (R41). -/
  disp : Option DispReq
  deriving DecidableEq, Repr

/-- Where the model's machine stops with a fault. The block itself has none (R177, R214): from a state that meets the
invariants no event reaches one. Both are safe: the model stops where the spec gives no unit to read or write. -/
inductive Fault where
  /-- A store unit read that was never written and has no stated content (R47, R65, U11). Raised by KEY (PSTART) and ENV. Safe. -/
  | unitNoValue
  /-- A store access outside `PS_BASE .. PS_BASE + NSLOTS * PS_STRIDE - 1`, which no rule can form (R73). Raised by the store
  accesses of KEY, ENV and CDONE. Safe. -/
  | outsideStore
  deriving DecidableEq, Repr

/-- Where the model gives no step. -/
inductive Refusal where
  /-- An instruction whose meaning is not written yet, by its table mnemonic. No arm raises it. Safe. -/
  | notModelled (mnemonic : String)
  /-- A word that is not an event has no step (R88, D23). Raised by `step`, and by KEY for a `k ≥ NKEYS` that no word
  decodes to. Safe. -/
  | malformed (why : DecodeReject)
  /-- The stream holds no further event: the run has ended (R43, R214; log entry 1). Raised by `step`. Safe. -/
  | streamEnd
  /-- `MemWrite` with `NVMWP == 1`: "a defect of the model, never a behaviour of the block" (R66, D19). Safe. -/
  | storeLocked
  /-- A launch whose parameters or store content break R202 (U14). Raised by `launch`. Safe. -/
  | badLaunch
  deriving DecidableEq, Repr

/-- The outcome of a step of this machine. -/
abbrev Result := Host.Outcome State Fault Refusal

/-- The machine right after reset: R46's table, in the default instance, with the store as it is the first time the device
is powered (R47: nothing written), and no event delivered yet. -/
def State.reset : State where
  cfg := Config.default
  stream := []
  fresh := 0
  readFaults := []
  mode := Config.default.modeDefault
  copy := false
  arb := .idle
  eng := .idle
  slot := none
  ecnt := none
  cur := none
  oldc := none
  rbuf := List.replicate Config.default.cap none
  envp := none
  owner := .nobody
  caparm := false
  carr := false
  enven := false
  outen := false
  latch := .ready
  btnie := true
  wake := false
  nvmwp := true
  ps := []
  disp := none

end Sys2Proof.Machine
end

