-- ==== Sys2Proof/Machine/Ops.lean ====
section
/-! DEFINITION. The named operations over the state: arithmetic primitives (spec 00_scope R12), the Pulse Store (20_memory
R60 to R73, R13), the working buffer (R29), power-on reset (R46, R161), launch (70 R202), derived outputs (R42, R181, R214)
and the printing codes (R41, D24). Entering and leaving a handler saves, restores and changes nothing (60 R175, R176), so
there is no operation for it: a step is the event's rule and nothing more. -/

namespace Sys2Proof.Machine

/-! ### Sequencing -/

/-- `call`: go on with `f` in the state the first part answers, inside the same step (R11, R14). -/
def andThen (r : Result) (f : State → Result) : Result :=
  match r with
  | .next s => f s
  | .fault e => .fault e
  | .refused e => .refused e

/-- Use a unit that was read, or stop with the read's fault. -/
def withRead {α : Type} (r : Except Fault α) (f : α → Result) : Result :=
  match r with
  | .ok v => f v
  | .error e => .fault e

/-- A store unit that may hold no value: a read of no value is the named fault (R65, U11). -/
def readReg {α : Type} (r : Option α) (e : Fault) : Except Fault α :=
  match r with
  | some v => .ok v
  | none => .error e

/-! ### The event stream (R43) -/

/-- Take the next event word: the words are consumed first to last, one per step; at the end of the stream there is none
(R43). -/
def fetchWord (s : State) : Option (EventWord × State) :=
  match s.stream with
  | [] => none
  | w :: rest => some (w, { s with stream := rest })

/-- Put `w` before the words that wait, so that it is the next one taken (R43, R216; log entry 1). -/
def deliverWord (w : EventWord) (s : State) : State := { s with stream := w :: s.stream }

/-! ### Arithmetic (R12) -/

/-- `sub16(a, b) = (a - b) mod 65536` (R12). -/
def sub16 (a b : Word) : Word := a - b

/-- `add16(a, b) = (a + b) mod 65536` (R12). -/
def add16 (a b : Word) : Word := a + b

/-! ### Elements that hold no value (R25 to R29, R46, R56; log entry 3) -/

/-- The free value of a 16-bit element. -/
def freeWord (q : Nat) : Word := BitVec.ofNat 16 (Config.freeValue q)

/-- The free slot reference, within R25's bounds. -/
def freeSlot (c : Config) (q : Nat) : SlotRef :=
  ⟨Config.freeValue q % c.nmodes, Config.freeValue q / c.nmodes % c.nkeys⟩

/-- The free edge count, within R26's bound `ECNT ≤ CAP`. -/
def freeCount (c : Config) (q : Nat) : Word := BitVec.ofNat 16 (Config.freeValue q % (c.cap + 1))

/-- The free cursor of a slot of length `n`, within R27's bounds `1 ≤ CUR ≤ n`. -/
def freeCursor (n : Word) (q : Nat) : Word := BitVec.ofNat 16 (1 + Config.freeValue q % n.toNat)

/-- Report the reads `fs` of elements that hold no value: the fault of R56 and U8; each takes one free value. -/
def reportFaults (fs : List ReadFault) (s : State) : State :=
  { s with fresh := s.fresh + fs.length, readFaults := s.readFaults ++ fs }

/-- Read an element and go on. One that holds no value is reported as the fault `e`, takes the next free value, within the
bounds the spec puts on the element, and holds it from there on. -/
def readElement {α : Type} (e : ReadFault) (get : State → Option α) (put : α → State → State) (free : Nat → α) (s : State)
    (f : α → State → Result) : Result :=
  match get s with
  | some v => f v s
  | none => f (free s.fresh) (put (free s.fresh) (reportFaults [e] s))

/-- Read `SLOT` (R25). -/
def readSlot (s : State) : (SlotRef → State → Result) → Result :=
  readElement .slot State.slot (fun v t => { t with slot := some v }) (freeSlot s.cfg) s

/-- Read `ECNT` (R26). -/
def readEcnt (s : State) : (Word → State → Result) → Result :=
  readElement .ecnt State.ecnt (fun v t => { t with ecnt := some v }) (freeCount s.cfg) s

/-- Read `CUR` in a playback of a slot of length `n` (R27). -/
def readCur (n : Word) (s : State) : (Word → State → Result) → Result :=
  readElement .cur State.cur (fun v t => { t with cur := some v }) (freeCursor n) s

/-- Read `OLDC` (R28). -/
def readOldc (s : State) : (Word → State → Result) → Result :=
  readElement .oldc State.oldc (fun v t => { t with oldc := some v }) freeWord s

/-! ### The store as data -/

/-- `a` is the first unit of a slot's record, its `length` unit (R62, R63). -/
def isLengthUnit (c : Config) (a : Nat) : Bool :=
  decide (c.psBase ≤ a) && (decide (a < c.storeEnd) && decide ((a - c.psBase) % c.psStride = 0))

/-- What a unit that is not listed reads as: 0 for a length unit, "no code" (R47); any other unit that nothing has written
holds no value (R47, R65, U11; log entry 4). -/
def unlisted (c : Config) (a : Nat) : Option Word :=
  if isLengthUnit c a then some 0 else none

/-- The listed value of unit `a`. -/
def Memory.find : Memory → Nat → Option Word
  | [], _ => none
  | (b, v) :: m, a => if a = b then some v else Memory.find m a

/-- The value unit `a` holds, if it holds one. -/
def Memory.read (c : Config) (m : Memory) (a : Nat) : Option Word :=
  match m.find a with
  | some v => some v
  | none => unlisted c a

/-- List `v` at `a`, in address order. -/
def Memory.insert : Memory → Nat → Word → Memory
  | [], a, v => [(a, v)]
  | (b, w) :: m, a, v =>
    if a < b then (a, v) :: (b, w) :: m
    else if a = b then (a, v) :: m
    else (b, w) :: Memory.insert m a v

/-- Take unit `a` off the list. -/
def Memory.erase : Memory → Nat → Memory
  | [], _ => []
  | (b, w) :: m, a => if a = b then Memory.erase m a else (b, w) :: Memory.erase m a

/-- Store `v` in unit `a`, keeping the canonical form: the value an unlisted unit reads as is not listed. -/
def Memory.write (c : Config) (m : Memory) (a : Nat) (v : Word) : Memory :=
  if unlisted c a = some v then m.erase a else m.insert a v

/-- Store a run of units, lowest address first (R13, R70). -/
def Memory.writeRun (c : Config) : Memory → Nat → List Word → Memory
  | m, _, [] => m
  | m, a, v :: vs => Memory.writeRun c (m.write c a v) (a + 1) vs

/-- Every entry's address is above `a`, in rising order. -/
def Memory.risingFrom : Nat → Memory → Bool
  | _, [] => true
  | a, (b, _) :: m => decide (a ≤ b) && Memory.risingFrom (b + 1) m

/-- The canonical form: addresses strictly rising, all inside the store (R73), no entry equal to what an unlisted unit reads
as. -/
def Memory.wf (c : Config) (m : Memory) : Bool :=
  Memory.risingFrom 0 m &&
    m.all fun e => decide (c.psBase ≤ e.1) && (decide (e.1 < c.storeEnd) && decide (unlisted c e.1 ≠ some e.2))

/-! ### Access to the store (R13, R63 to R67) -/

/-- The `n` units from `a` lie inside the store (R9, R73). -/
def inStore (c : Config) (a n : Nat) : Bool :=
  decide (c.psBase ≤ a) && decide (a + n ≤ c.storeEnd)

/-- Slot index `m * NKEYS + k` (R63). -/
def slotIndex (c : Config) (sl : SlotRef) : Nat := sl.m * c.nkeys + sl.k

/-- `PS_addr(slot(m, k)) = PS_BASE + idx * PS_STRIDE`, in unbounded naturals (R63). -/
def psAddr (c : Config) (sl : SlotRef) : Nat := c.psBase + slotIndex c sl * c.psStride

/-- The units from `a` on, as many as `n`, each with a value or a fault (R13). -/
def readRun (s : State) : Nat → Nat → Except Fault (List Word)
  | _, 0 => .ok []
  | a, n + 1 =>
    match readReg (s.ps.read s.cfg a) .unitNoValue with
    | .error e => .error e
    | .ok v =>
      match readRun s (a + 1) n with
      | .error e => .error e
      | .ok vs => .ok (v :: vs)

/-- `MemRead(a, n)`: `n` consecutive units, lowest address first (R13). A read has no side effect (R64, R70). -/
def memRead (s : State) (a n : Nat) : Except Fault (List Word) :=
  if inStore s.cfg a n then readRun s a n else .error .outsideStore

/-- `MemRead(a, 1)`, "the single unit" (R13). -/
def memReadUnit (s : State) (a : Nat) : Except Fault Word :=
  if inStore s.cfg a 1 then readReg (s.ps.read s.cfg a) .unitNoValue else .error .outsideStore

/-- `PS_len(s) = MemRead(PS_addr(s), 1)` (R64). -/
def psLen (s : State) (sl : SlotRef) : Except Fault Word := memReadUnit s (psAddr s.cfg sl)

/-- `PS_ivl(s, i) = MemRead(PS_addr(s) + 1 + i, 1)`, for `i < PS_len(s)`; no rule evaluates it elsewhere (R64, R65). -/
def psIvl (s : State) (sl : SlotRef) (i : Nat) : Except Fault Word := memReadUnit s (psAddr s.cfg sl + 1 + i)

/-- The source's `read(slot_id)`: `None` if the length is 0, else the list of intervals (R64). -/
def psRead (s : State) (sl : SlotRef) : Except Fault (Option (List Word)) :=
  match psLen s sl with
  | .error e => .error e
  | .ok n =>
    if n = 0 then .ok none
    else
      match memRead s (psAddr s.cfg sl + 1) n.toNat with
      | .error e => .error e
      | .ok vs => .ok (some vs)

/-- `MemWrite(a, n, vs)` with `n` the length of `vs`: permitted only while `NVMWP == 0`, else refused (R13, R66). -/
def memWrite (s : State) (a : Nat) (vs : List Word) : Result :=
  if s.nvmwp then .refused .storeLocked
  else if inStore s.cfg a vs.length then .next { s with ps := s.ps.writeRun s.cfg a vs }
  else .fault .outsideStore

/-! ### The working buffer (R29) -/

/-- All `CAP` registers of the working buffer without a value (R29, R46). -/
def emptyBuffer (c : Config) : List (Option Word) := List.replicate c.cap none

/-- The first `n` registers of a buffer, a register that holds no value giving the next free value from the `q`-th on. -/
def bufferPrefix : List (Option Word) → Nat → Nat → List Word
  | _, 0, _ => []
  | some v :: r, n + 1, q => v :: bufferPrefix r n q
  | none :: r, n + 1, q => freeWord q :: bufferPrefix r n (q + 1)
  | [], n + 1, q => freeWord q :: bufferPrefix [] n (q + 1)

/-- The faults of reading the first `n` registers of a buffer, whose first one is `RBUF[i]` (R56). -/
def bufferFaults : List (Option Word) → Nat → Nat → List ReadFault
  | _, 0, _ => []
  | some _ :: r, n + 1, i => bufferFaults r n (i + 1)
  | none :: r, n + 1, i => .rbuf i :: bufferFaults r n (i + 1)
  | [], n + 1, i => .rbuf i :: bufferFaults [] n (i + 1)

/-- Read `RBUF[0 .. n-1]` and go on (R29, R106); registers that hold no value are reported. -/
def readBuffer (n : Nat) (s : State) (f : List Word → State → Result) : Result :=
  f (bufferPrefix s.rbuf n s.fresh) (reportFaults (bufferFaults s.rbuf n 0) s)

/-- `RBUF[i] <- v` (R11, R29). -/
def writeBuffer (s : State) (i : Nat) (v : Word) : State := { s with rbuf := s.rbuf.set i (some v) }

/-! ### Reset and launch -/

/-- The state power-on reset leaves: R46's table over the instance `c` and the store `ps` (R161, R200, R201). -/
def powerOn (c : Config) (stream : List EventWord) (ps : Memory) : State where
  cfg := c
  stream := stream
  fresh := 0
  readFaults := []
  mode := c.modeDefault
  copy := false
  arb := .idle
  eng := .idle
  slot := none
  ecnt := none
  cur := none
  oldc := none
  rbuf := emptyBuffer c
  envp := none
  owner := .nobody
  caparm := false
  carr := false
  enven := false
  outen := false
  latch := .ready
  btnie := true
  wake := false
  nvmwp := true
  ps := ps
  disp := none

/-- The slot's length is at most `CAP` and each interval below it holds a value: the launch premise of R47 and R202 (3), and
what every read of the slot rests on (R52, R64). -/
def slotOk (s : State) (sl : SlotRef) : Bool :=
  match psLen s sl with
  | .error _ => false
  | .ok n =>
    decide (n.toNat ≤ s.cfg.cap) &&
      (List.range n.toNat).all fun i =>
        match psIvl s sl i with
        | .ok _ => true
        | .error _ => false

/-- Every slot meets the launch premise (R47, R52, R202). -/
def storeOk (s : State) : Bool :=
  s.ps.wf s.cfg &&
    (List.range s.cfg.nmodes).all fun m => (List.range s.cfg.nkeys).all fun k => slotOk s ⟨m, k⟩

/-- A launch: the environment chooses the parameters, the store's content and the event stream (R202, R214, R216); a launch
outside the bounds of R8, R63 and R47 is refused (U14). -/
def launch (c : Config) (stream : List EventWord) (ps : Memory) : Result :=
  if c.Ok ∧ storeOk (powerOn c stream ps) = true then .next (powerOn c stream ps) else .refused .badLaunch

/-! ### Derived outputs and observables -/

/-- `IROUT_ACTIVE = CARR AND OUTEN` (R42). -/
def iroutActive (s : State) : Bool := s.carr && s.outen

/-- The main flow is parked: `WAKE == 0` (R38, R181). -/
def parked (s : State) : Bool := !s.wake

/-- The block is at rest (R214). -/
def atRest (s : State) : Bool :=
  decide (s.eng = .idle) && (decide (s.arb = .idle) && (!s.wake && decide (s.latch = .ready)))

/-! ### Printing codes (R23, R24, R31, R36, R41, D24) -/

/-- Codes of `ARB` (R23). -/
def arbCode : Arb → Nat
  | .idle => 0
  | .recording => 1
  | .playing => 2
  | .modeDisplay => 3

/-- Codes of `ENG` (R24). -/
def engCode : Eng → Nat
  | .idle => 0
  | .recording => 1
  | .playing => 2

/-- Codes of `OWNER` (R31). -/
def ownerCode : Owner → Nat
  | .nobody => 0
  | .capture => 1
  | .playback => 2

/-- Codes of `LATCH` (R36). -/
def latchCode : Latch → Nat
  | .ready => 0
  | .pressed => 1

/-- Codes of `DISP`: `DISP_MODE(m)` is `m`, `DISP_COPY` is 0x80, `DISP_NOCODE` is 0x81 (R41). -/
def dispCode : DispReq → Nat
  | .modeName m => m
  | .copyMode => 0x80
  | .noCode => 0x81

end Sys2Proof.Machine
end

