-- ==== Sys2Proof/Machine/Operands.lean ====
section
/-! DEFINITION. The operand forms of the events: the keypad index as a slot reference in the current mode (spec 42_arbiter
R139, 00_scope R15) and the latched count as a delta (40_capture R102). Both operands are zero-extended and unsigned
(30_encoding R81). -/

namespace Sys2Proof.Machine

/-- `slot(MODE, k)`: an accepted press of key `k` addresses this slot, with the mode read at the press (R139). -/
def slotForKey (s : State) (k : Word) : SlotRef := ⟨s.mode, k.toNat⟩

/-- The delta law: `delta = sub16(cnt, OLDC)` (R102). -/
def captureDelta (cnt old : Word) : Word := sub16 cnt old

end Sys2Proof.Machine
end

