-- ==== Sys2Proof/Machine/Flags.lean ====
section
/-! DEFINITION. The gates and the one-bit flags: the debounce gate ACCEPT (spec 42_arbiter R136), the gates of the interrupt
sources (60_exceptions R172). The block has no carry, overflow, zero or sign flag (00_scope R12). -/

namespace Sys2Proof.Machine

/-- Button-input interrupts are enabled and the latch is `Ready`: what ACCEPT tests (R136, R172). -/
def buttonGate (s : State) : Bool := s.btnie && decide (s.latch = .ready)

/-- `LATCH <- Pressed`, which also (re)arms the settle timer (R36, R136). -/
def press (s : State) : State := { s with latch := .pressed }

/-- `ACCEPT`: the state in which an accepted raw button edge goes on, or `none` where the edge is dropped (R136). -/
def accept (s : State) : Option State := if buttonGate s then some (press s) else none

/-- A button event: dropped with no state change unless ACCEPT holds (R136, R173). -/
def onAccept (s : State) (f : State → Result) : Result :=
  match accept s with
  | none => .next s
  | some t => f t

/-- The column "enabled when" of R172's table; `SLEEP` is the main flow's step and has no gate (R160, R178). -/
def gateOpen (s : State) : Instr → Bool
  | .por => true
  | .edge _ => s.caparm
  | .env => s.enven
  | .key _ => buttonGate s
  | .copy => buttonGate s
  | .ok => buttonGate s
  | .mode => buttonGate s
  | .settle => true
  | .tmo => true
  | .sleep => true

end Sys2Proof.Machine
end

