-- ==== Sys2Proof/Machine/Capture.lean ====
section
/-! DEFINITION. The Capture Engine (spec 40_capture): CSTART (R101), CDONE (R106), EDGE (R103), TMO (R104). -/

namespace Sys2Proof.Machine

/-- `CSTART(s)`: capture start. `RBUF` and the store are not touched; `ARB` is the caller's. Precondition `ENG == Idle`,
guaranteed by the caller KEY (R101, R203). -/
def cstart (sl : SlotRef) (s : State) : State :=
  { s with
    slot := some sl
    ecnt := some 0
    oldc := some 0
    owner := .capture
    caparm := true
    eng := .recording }

/-- `NVMWP <- 0`, unlock writes (R66, R106). -/
def unlock (s : State) : State := { s with nvmwp := false }

/-- `NVMWP <- 1`, lock writes (R66, R106). -/
def lock (s : State) : State := { s with nvmwp := true }

/-- CDONE after its lock: disarm, free the timer, return to `Idle`, restore the display, wake the main flow; `SLOT`, `ECNT`,
`OLDC` and `RBUF` hold no value afterwards (R106, R56). -/
def captureIdle (s : State) : State :=
  { s with
    caparm := false
    owner := .nobody
    eng := .idle
    arb := .idle
    btnie := true
    disp := some (.modeName s.mode)
    wake := true
    slot := none
    ecnt := none
    oldc := none
    rbuf := emptyBuffer s.cfg }

/-- `CDONE`: capture completion, the one atomic slot write (R106, R67, R68). The walk unlock, intervals, length, lock is the
slot-write sequencer of R107, inside this step. -/
def cdone (s : State) : Result :=
  readSlot s fun sl t =>
  readEcnt t fun n u =>
  readBuffer n.toNat u fun vs v =>
  andThen (memWrite (unlock v) (psAddr s.cfg sl + 1) vs) fun w =>
  andThen (memWrite w (psAddr s.cfg sl) [n]) fun x =>
  .next (captureIdle (lock x))

/-- The append of EDGE: under `ECNT < CAP`, `RBUF[ECNT] <- delta` and `ECNT <- ECNT + 1` (R103). -/
def appendDelta (delta n : Word) (s : State) : State :=
  if n.toNat < s.cfg.cap then { writeBuffer s n.toNat delta with ecnt := some (add16 n 1) } else s

/-- EDGE's last lines: `OLDC <- cnt`, then CDONE when `ECNT == CAP` (R103). -/
def edgeFinish (cnt : Word) (s : State) : Result :=
  readEcnt s fun n t =>
  if n.toNat = t.cfg.cap then cdone { t with oldc := some cnt } else .next { t with oldc := some cnt }

/-- `EDGE cnt`: capture event (R103). -/
def execEdge (cnt : Word) (s : State) : Result :=
  if s.caparm then
    readOldc s fun old t =>
    readEcnt t fun n u =>
    edgeFinish cnt (appendDelta (captureDelta cnt old) n u)
  else .next s

/-- `TMO`: capture stop request (R104). -/
def execTmo (s : State) : Result :=
  if s.eng = .recording then cdone s else .next s

end Sys2Proof.Machine
end

