-- ==== Sys2Proof/Machine/Playback.lean ====
section
/-! DEFINITION. The Playback Engine (spec 41_playback): PSTART (R121), PDONE (R125), ENV (R123). -/

namespace Sys2Proof.Machine

/-- PSTART once interval 0 has been read: the period is loaded, carrier and envelope run, button interrupts are off (R121). -/
def playFrom (sl : SlotRef) (v : Word) (s : State) : State :=
  { s with
    slot := some sl
    envp := some v
    cur := some 1
    outen := s.cfg.envInit
    owner := .playback
    carr := true
    enven := true
    btnie := false
    eng := .playing }

/-- `PSTART(s)`: playback start; `ARB` is the caller's. Preconditions `ENG == Idle` and `PS_len(s) > 0`, guaranteed by the
caller KEY (R121, R203). -/
def pstart (sl : SlotRef) (s : State) : Result :=
  withRead (psIvl s sl 0) fun v => .next (playFrom sl v s)

/-- `PDONE`: playback completion; `OUTEN` keeps its polarity; `SLOT`, `CUR`, `ENVP` hold no value afterwards (R125, R56). -/
def pdone (s : State) : State :=
  { s with
    carr := false
    enven := false
    owner := .nobody
    eng := .idle
    arb := .idle
    btnie := true
    disp := some (.modeName s.mode)
    wake := true
    slot := none
    cur := none
    envp := none }

/-- The envelope boundary that loads a period: toggle the enable line, load `v`, advance the cursor `i` (R123). -/
def loadPeriod (v i : Word) (s : State) : State :=
  { s with outen := !s.outen, envp := some v, cur := some (add16 i 1) }

/-- `ENV`: envelope-period-elapsed interrupt (R123). The length is read from the store at each event. -/
def execEnv (s : State) : Result :=
  if s.enven then
    readSlot s fun sl t =>
    withRead (psLen t sl) fun n =>
    readCur n t fun i u =>
    if i.toNat < n.toNat then withRead (psIvl u sl i.toNat) fun v => .next (loadPeriod v i u)
    else .next (pdone u)
  else .next s

end Sys2Proof.Machine
end

