-- ==== Sys2Proof/Machine/Arbiter.lean ====
section
/-! DEFINITION. The Mode/Button Arbiter and the Debounce Latch (spec 42_arbiter): KEY (R140), COPY (R141), OK (R142), MODE
(R144), SETTLE (R137). -/

namespace Sys2Proof.Machine

/-- `ARB <- st` (R14). -/
def setArb (st : Arb) (s : State) : State := { s with arb := st }

/-- `DISP <- d` (R41). -/
def setDisp (d : DispReq) (s : State) : State := { s with disp := some d }

/-- The two branches of a button rule: `ARB` in `Idle`, `ModeDisplay`, or else (R140 to R144, R146). -/
def inIdle (s : State) : Bool := decide (s.arb = .idle) || decide (s.arb = .modeDisplay)

/-- KEY's playback branch, `COPY == 0`: start playback of a slot that holds a code, else the "no code" indicator (R140,
R127). -/
def keyPlay (sl : SlotRef) (s : State) : Result :=
  withRead (psLen s sl) fun n =>
  if 0 < n.toNat then andThen (pstart sl s) fun t => .next (setArb .playing t)
  else .next (setDisp .noCode s)

/-- `KEY k`: raw edge of keypad position `k` (R140, R145). A `k ≥ NKEYS`, which no event word decodes to, has no step (R88;
log entry 8). -/
def execKey (k : Word) (s : State) : Result :=
  if k.toNat < s.cfg.nkeys then
    onAccept s fun t =>
      if inIdle t then
        if t.copy then .next (setArb .recording (cstart (slotForKey t k) t)) else keyPlay (slotForKey t k) t
      else .next t
  else .refused (.malformed .keyOutOfRange)

/-- `COPY <- !COPY` and the display request that goes with it (R141). -/
def toggleCopy (s : State) : State :=
  { s with copy := !s.copy, disp := some (if s.copy then .modeName s.mode else .copyMode) }

/-- `COPY`: raw edge of the copy-toggle button (R141, R143). -/
def execCopy (s : State) : Result :=
  onAccept s fun t => if inIdle t then .next (toggleCopy t) else cdone t

/-- Leave copy mode: `COPY <- 0; DISP <- DISP_MODE(MODE)` (R142). -/
def leaveCopy (s : State) : State := { s with copy := false, disp := some (.modeName s.mode) }

/-- `OK`: raw edge of the ok/cancel button (R142, R143). -/
def execOk (s : State) : Result :=
  onAccept s fun t => if inIdle t then (if t.copy then .next (leaveCopy t) else .next t) else cdone t

/-- The mode advance, modulo `NMODES` (R144, R12). -/
def nextMode (s : State) : Nat := (s.mode + 1) % s.cfg.nmodes

/-- MODE's four writes (R144). -/
def advanceMode (s : State) : State :=
  { s with mode := nextMode s, arb := .modeDisplay, disp := some (.modeName (nextMode s)), wake := true }

/-- `MODE`: raw edge of the mode button (R144, R145). -/
def execMode (s : State) : Result :=
  onAccept s fun t => if inIdle t then .next (advanceMode t) else .next t

/-- `SETTLE`: the settle timer's time-out (R137). -/
def execSettle (s : State) : Result := .next { s with latch := .ready }

end Sys2Proof.Machine
end

