-- ==== Sys2Proof/Machine/System.lean ====
section
/-! DEFINITION. The system events (spec 43_system): SLEEP (R160) and POR (R161). -/

namespace Sys2Proof.Machine

/-- SLEEP while awake: clear `WAKE`, and take `ModeDisplay` back to `Idle` (R160). -/
def park (s : State) : State :=
  { s with wake := false, arb := if s.arb = .modeDisplay then .idle else s.arb }

/-- `SLEEP`: the main flow re-enters its low-power wait (R160). -/
def execSleep (s : State) : Result := if s.wake then .next (park s) else .next s

/-- `POR`: power-on reset; the store is kept (R161, R46), and free values once taken are not taken again. -/
def execPor (s : State) : Result := .next { powerOn s.cfg s.stream s.ps with fresh := s.fresh, readFaults := s.readFaults }

end Sys2Proof.Machine
end

