-- ==== Sys2Proof/Machine/Dispatch.lean ====
section
/-! DEFINITION. One arm per event: the "single dispatch function" of spec 00_scope R2. -/

namespace Sys2Proof.Machine

def exec (i : Instr) (s : State) : Host.Outcome State Fault Refusal :=
  match i with
  | .por => Sys2Proof.Machine.execPor s
  | .edge cnt => Sys2Proof.Machine.execEdge cnt s
  | .env => Sys2Proof.Machine.execEnv s
  | .key k => Sys2Proof.Machine.execKey k s
  | .copy => Sys2Proof.Machine.execCopy s
  | .ok => Sys2Proof.Machine.execOk s
  | .mode => Sys2Proof.Machine.execMode s
  | .settle => Sys2Proof.Machine.execSettle s
  | .tmo => Sys2Proof.Machine.execTmo s
  | .sleep => Sys2Proof.Machine.execSleep s

end Sys2Proof.Machine
end

