-- ==== Sys2Proof/Machine/Step.lean ====
section
/-! DEFINITION. The step: take the next word of the event stream, decode it, run its event to completion (spec 10_state R43,
60_exceptions R171). A run of events one after another (70 R214). -/

namespace Sys2Proof.Machine

/-- One step: the next event word of the stream is consumed and the event it decodes to runs as one atomic step (R43, R171). A
word that is not an event has no step (R88); at the end of the stream there is no step (R214). -/
def step (s : State) : Host.Outcome State Fault Refusal :=
  match fetchWord s with
  | none => .refused .streamEnd
  | some (w, t) =>
    match decode t.cfg w with
    | .ok i => exec i t
    | .error r => .refused (.malformed r)

/-- `s` with the event word of `nbits` bits `w` (the bits above are 0) as the next word of its event stream, ahead of the
words that wait there. -/
def State.withFetchWord (s : State) (nbits w : Nat) : State :=
  deliverWord (BitVec.ofNat 32 (w % 2 ^ nbits)) s

/-- The events of a run, first to last, stopping at the first fault or refusal (R43, R214). -/
def runEvents : List Instr → State → Host.Outcome State Fault Refusal
  | [], s => .next s
  | i :: is, s => andThen (exec i s) (runEvents is)

end Sys2Proof.Machine
end

