-- ==== Sys2Proof/Machine/Assembler.lean ====
section
/-! DEFINITION. The textual syntax of an event stream (spec 30_encoding R86) and the pseudo-events `PRESS` and `EDGES` (R87,
R85). Lines are lists of characters, so that the kernel can evaluate them. A toolchain convenience of the spec: no event's
meaning uses it. -/

namespace Sys2Proof

/-! ### Pseudo-events (R87) -/

/-- `PRESS <button>`: the press followed by the latch's release (R87). -/
def pseudoPress (button : Instr) : List Instr := [button, .settle]

/-- `EDGES` from a running count `c`: each delta added modulo 65536 (R85, R87). -/
def pseudoEdgesFrom : Word → List Word → List Instr
  | _, [] => []
  | c, d :: ds => .edge (c + d) :: pseudoEdgesFrom (c + d) ds

/-- `EDGES d_1, ..., d_n`: `EDGE c_j` with `c_j = (d_1 + ... + d_j) mod 65536` (R87). -/
def pseudoEdges (ds : List Word) : List Instr := pseudoEdgesFrom 0 ds

/-! ### Printing (R86) -/

/-- The mnemonic, in upper case (R83, R86). -/
def mnemonicChars : Instr → List Char
  | .por => ['P', 'O', 'R']
  | .edge _ => ['E', 'D', 'G', 'E']
  | .env => ['E', 'N', 'V']
  | .key _ => ['K', 'E', 'Y']
  | .copy => ['C', 'O', 'P', 'Y']
  | .ok => ['O', 'K']
  | .mode => ['M', 'O', 'D', 'E']
  | .settle => ['S', 'E', 'T', 'T', 'L', 'E']
  | .tmo => ['T', 'M', 'O']
  | .sleep => ['S', 'L', 'E', 'E', 'P']

/-- The decimal digits of `n` before `acc`, at most `fuel` of them. -/
def decimalChars : Nat → Nat → List Char → List Char
  | 0, _, acc => acc
  | fuel + 1, n, acc =>
    if n < 10 then Char.ofNat (48 + n) :: acc
    else decimalChars fuel (n / 10) (Char.ofNat (48 + n % 10) :: acc)

/-- An operand after one space, in decimal; a 16-bit value has at most five digits (R86). -/
def operandChars (v : Word) : List Char := ' ' :: decimalChars 5 v.toNat []

/-- The disassembler's spelling of an event (R86). -/
def disassemble : Instr → List Char
  | .por => mnemonicChars .por
  | .edge cnt => mnemonicChars (.edge cnt) ++ operandChars cnt
  | .env => mnemonicChars .env
  | .key k => mnemonicChars (.key k) ++ operandChars k
  | .copy => mnemonicChars .copy
  | .ok => mnemonicChars .ok
  | .mode => mnemonicChars .mode
  | .settle => mnemonicChars .settle
  | .tmo => mnemonicChars .tmo
  | .sleep => mnemonicChars .sleep

/-! ### Reading a line (R86, R87) -/

/-- Why a line is not one of the syntax. -/
inductive AsmReject where
  /-- The first word is no mnemonic. -/
  | unknownMnemonic
  /-- Operands are missing, too many, or not numbers below 65536. -/
  | badOperand
  /-- `PRESS` of something that is not a button (R87). -/
  | notAButton
  /-- The operand breaks the event's constraint (R83). -/
  | outOfRange
  deriving DecidableEq, Repr

/-- The line without its comment: `;` runs to the end of the line (R86). -/
def stripComment : List Char → List Char
  | [] => []
  | ch :: cs => if ch = ';' then [] else ch :: stripComment cs

/-- The words of a line, split at spaces and commas; empty words are left out (log entry 13). -/
def splitWords : List Char → List Char → List (List Char)
  | [], [] => []
  | [], w => [w.reverse]
  | ch :: cs, w =>
    if ch = ' ' ∨ ch = ',' then (if w = [] then splitWords cs [] else w.reverse :: splitWords cs [])
    else splitWords cs (ch :: w)

/-- The value of a digit in the given base, with capital or small letters above 9. -/
def digitValue (base : Nat) (ch : Char) : Option Nat :=
  let n := ch.toNat
  let v := if 48 ≤ n ∧ n ≤ 57 then n - 48 else if 65 ≤ n ∧ n ≤ 70 then n - 55 else if 97 ≤ n ∧ n ≤ 102 then n - 87 else 16
  if v < base then some v else none

/-- Digits read from the left onto `acc`. -/
def readDigits (base : Nat) : Nat → List Char → Option Nat
  | acc, [] => some acc
  | acc, ch :: cs =>
    match digitValue base ch with
    | none => none
    | some d => readDigits base (acc * base + d) cs

/-- A number in decimal or `0x` hexadecimal (R86). -/
def readNumber : List Char → Option Nat
  | [] => none
  | ['0', 'x'] => none
  | '0' :: 'x' :: cs => readDigits 16 0 cs
  | cs => readDigits 10 0 cs

/-- A 16-bit operand (R81). -/
def readOperand (cs : List Char) : Option Word :=
  match readNumber cs with
  | none => none
  | some n => if n < 65536 then some (BitVec.ofNat 16 n) else none

/-- The operands of `EDGES`. -/
def readOperands : List (List Char) → Option (List Word)
  | [] => some []
  | w :: ws =>
    match readOperand w, readOperands ws with
    | some v, some vs => some (v :: vs)
    | _, _ => none

/-- An event without an operand, spelled by its mnemonic. -/
def readPlain (w : List Char) : Option Instr :=
  [Instr.por, .env, .copy, .ok, .mode, .settle, .tmo, .sleep].find? fun i => mnemonicChars i = w

/-- One event of the syntax from its words (R86). -/
def readEvent (c : Config) : List (List Char) → Except AsmReject Instr
  | [] => .error .unknownMnemonic
  | w :: args =>
    if w = mnemonicChars (.edge 0) then
      match args with
      | [a] => match readOperand a with
        | some v => .ok (.edge v)
        | none => .error .badOperand
      | _ => .error .badOperand
    else if w = mnemonicChars (.key 0) then
      match args with
      | [a] => match readOperand a with
        | some v => if v.toNat < c.nkeys then .ok (.key v) else .error .outOfRange
        | none => .error .badOperand
      | _ => .error .badOperand
    else
      match readPlain w with
      | some i => if args = [] then .ok i else .error .badOperand
      | none => .error .unknownMnemonic

/-- The events of one line: none for an empty line or a comment, several for a pseudo-event (R86, R87). -/
def readLine (c : Config) (line : List Char) : Except AsmReject (List Instr) :=
  match splitWords (stripComment line) [] with
  | [] => .ok []
  | w :: args =>
    if w = ['P', 'R', 'E', 'S', 'S'] then
      match readEvent c args with
      | .ok i => if i.isButton then .ok (pseudoPress i) else .error .notAButton
      | .error e => .error e
    else if w = ['E', 'D', 'G', 'E', 'S'] then
      match readOperands args with
      | some ds => if ds = [] then .error .badOperand else .ok (pseudoEdges ds)
      | none => .error .badOperand
    else
      match readEvent c (w :: args) with
      | .ok i => .ok [i]
      | .error e => .error e

/-- The assembler: a line's event words, each `{op, 0x00, imm16}` (R86). -/
def assembleLine (c : Config) (line : List Char) : Except AsmReject (List EventWord) :=
  match readLine c line with
  | .ok is => .ok (is.map encode)
  | .error e => .error e

end Sys2Proof
end

