-- ==== Sys2Proof/Safety.lean ====
section
/-! DEFINITION. What the claims speak in: the invariants of spec 10_state section 5 (R48 to R57), the defects of a word
(30_encoding R88), the effect of a capture completion on the store (40_capture R106), the arbiter's transition table
(42_arbiter R150). -/

namespace Sys2Proof.Machine

/-! ### The invariants -/

/-- While `ENG == Idle`: no channel runs, nobody owns the timer, buttons are enabled, and no data register holds a value
(R48, R49, R54, R56). -/
structure IdleData (s : State) : Prop where
  arb : s.arb = .idle ∨ s.arb = .modeDisplay
  owner : s.owner = .nobody
  caparm : s.caparm = false
  carr : s.carr = false
  enven : s.enven = false
  btnie : s.btnie = true
  slot : s.slot = none
  ecnt : s.ecnt = none
  cur : s.cur = none
  oldc : s.oldc = none
  envp : s.envp = none
  rbuf : s.rbuf = emptyBuffer s.cfg

/-- While `ENG == Recording`: only the capture channel runs, `COPY == 1`, the slot belongs to the current mode, `ECNT < CAP`,
and exactly the first `ECNT` registers of the buffer hold a value (R49, R51, R54, R56, R139). -/
structure RecordingData (s : State) : Prop where
  arb : s.arb = .recording
  owner : s.owner = .capture
  caparm : s.caparm = true
  carr : s.carr = false
  enven : s.enven = false
  btnie : s.btnie = true
  copy : s.copy = true
  cur : s.cur = none
  envp : s.envp = none
  oldc : ∃ o, s.oldc = some o
  slot : ∃ k, k < s.cfg.nkeys ∧ s.slot = some ⟨s.mode, k⟩
  buffer : ∃ (n : Word) (vs : List Word), s.ecnt = some n ∧ n.toNat < s.cfg.cap ∧ vs.length = n.toNat ∧
    s.rbuf = vs.map some ++ List.replicate (s.cfg.cap - n.toNat) none

/-- While `ENG == Playing`: carrier and envelope run, buttons are off, `COPY == 0`, the cursor lies in the slot's list, and
`ENVP` and `OUTEN` are those of period `CUR - 1` (R49, R53, R54, R56, R139). -/
structure PlayingData (s : State) : Prop where
  arb : s.arb = .playing
  owner : s.owner = .playback
  caparm : s.caparm = false
  carr : s.carr = true
  enven : s.enven = true
  btnie : s.btnie = false
  copy : s.copy = false
  ecnt : s.ecnt = none
  oldc : s.oldc = none
  rbuf : s.rbuf = emptyBuffer s.cfg
  cursor : ∃ (k : Nat) (i n v : Word), k < s.cfg.nkeys ∧ s.slot = some ⟨s.mode, k⟩ ∧ s.cur = some i ∧
    psLen s ⟨s.mode, k⟩ = .ok n ∧ 1 ≤ i.toNat ∧ i.toNat ≤ n.toNat ∧
    psIvl s ⟨s.mode, k⟩ (i.toNat - 1) = .ok v ∧ s.envp = some v ∧
    s.outen = Bool.xor s.cfg.envInit (decide ((i.toNat - 1) % 2 = 1))

/-- The invariants of R48 to R57, with the parameters' bounds (R8, R63), the mode's range (R21), the buffer's size (R29), the
store's canonical form and the launch premise on the slots (R47, R52). -/
structure Invariant (s : State) : Prop where
  params : s.cfg.Ok
  modeRange : s.mode < s.cfg.nmodes
  storeWf : s.ps.wf s.cfg = true
  slots : ∀ m k, m < s.cfg.nmodes → k < s.cfg.nkeys → slotOk s ⟨m, k⟩ = true
  idle : s.eng = .idle → IdleData s
  recording : s.eng = .recording → RecordingData s
  playing : s.eng = .playing → PlayingData s
  locked : s.nvmwp = true
  awakeDisplay : s.arb = .modeDisplay → s.wake = true

/-! ### Words that are not events -/

/-- The condition of R88 that each refusal name stands for. -/
def Defect (c : Config) (w : EventWord) : DecodeReject → Prop
  | .reservedOpcode => opField w = 0x00 ∨ 0x0B ≤ (opField w).toNat
  | .nonzeroReservedBits => zeroField w ≠ 0
  | .nonzeroOperand => (opField w = 0x01 ∨ opField w = 0x03 ∨ (0x05 ≤ (opField w).toNat ∧ (opField w).toNat ≤ 0x0A)) ∧
      immField w ≠ 0
  | .keyOutOfRange => opField w = 0x04 ∧ c.nkeys ≤ (immField w).toNat

/-! ### Capture completion -/

/-- `m'` is the store `m` after the slot write of R67: the length unit holds the number of intervals, the units after it the
intervals, and every other unit reads as before. -/
def SlotWritten (c : Config) (m m' : Memory) (sl : SlotRef) (n : Word) (vs : List Word) : Prop :=
  ∀ a, m'.read c a =
    if a = psAddr c sl then some n
    else if psAddr c sl < a ∧ a ≤ psAddr c sl + vs.length then vs[a - psAddr c sl - 1]?
    else m.read c a

/-- A recording of slot `sl` holds the `n` intervals `vs` in its buffer, and the slot's record lies in the store. -/
structure Holds (s : State) (sl : SlotRef) (n : Word) (vs : List Word) : Prop where
  slot : s.slot = some sl
  ecnt : s.ecnt = some n
  count : vs.length = n.toNat
  buffer : s.rbuf.take n.toNat = vs.map some
  room : inStore s.cfg (psAddr s.cfg sl) (n.toNat + 1) = true

/-- What CDONE leaves (R106): the slot written with `vs`, the engine and the arbiter `Idle`, buttons enabled, the mode name
requested, the main flow woken, the store locked, the recording's registers without a value; all else as in `s`. -/
def CaptureEnds (s : State) (sl : SlotRef) (n : Word) (vs : List Word) (r : Result) : Prop :=
  ∃ m, SlotWritten s.cfg s.ps m sl n vs ∧
    r = .next { s with
      ps := m, nvmwp := true, caparm := false, owner := .nobody, eng := .idle, arb := .idle, btnie := true,
      disp := some (.modeName s.mode), wake := true,
      slot := none, ecnt := none, oldc := none, rbuf := List.replicate s.cfg.cap none }

/-! ### The arbiter's transition table -/

/-- The slot holds a code: `PS_len > 0` (R62, R140). -/
def hasCode (s : State) (sl : SlotRef) : Bool :=
  match psLen s sl with
  | .ok n => decide (0 < n.toNat)
  | .error _ => false

/-- Playback is in its last period: `CUR == PS_len(SLOT)` (R123, R150). -/
def lastPeriod (s : State) : Bool :=
  match s.slot with
  | none => false
  | some sl => decide (Except.toOption (psLen s sl) = s.cur)

/-- The column "to" of R150's table: where `ARB` goes from `s` at each event; a row the table does not list leaves it. -/
def arbAfter (s : State) : Instr → Arb
  | .por => .idle
  | .edge _ => if s.arb = .recording ∧ (s.ecnt.map fun n => n.toNat + 1) = some s.cfg.cap then .idle else s.arb
  | .env => if s.arb = .playing ∧ lastPeriod s = true then .idle else s.arb
  | .key k =>
    if buttonGate s ∧ inIdle s then
      if s.copy then .recording else if hasCode s (slotForKey s k) then .playing else s.arb
    else s.arb
  | .copy => if buttonGate s ∧ s.arb = .recording then .idle else s.arb
  | .ok => if buttonGate s ∧ s.arb = .recording then .idle else s.arb
  | .mode => if buttonGate s ∧ inIdle s then .modeDisplay else s.arb
  | .settle => s.arb
  | .tmo => if s.arb = .recording then .idle else s.arb
  | .sleep => if s.arb = .modeDisplay then .idle else s.arb

/-- An event ended the engine that ran: a completion (R17), not a reset. -/
def Completes (i : Instr) (s t : State) : Prop := i ≠ .por ∧ s.eng ≠ .idle ∧ t.eng = .idle

/-- A result seen from `ModeDisplay`: where the step leaves `ARB` at `Idle`, it leaves `ModeDisplay` instead (R146). -/
def keepModeDisplay : Result → Result
  | .next t => .next { t with arb := if t.arb = .idle then .modeDisplay else t.arb }
  | .fault e => .fault e
  | .refused e => .refused e

/-- The same state in an instance with other physical figures: carrier, tick rate, settle time (R8, R215). -/
def withPhysical (hz duty : Nat) (tick settle : Option Nat) (s : State) : State :=
  { s with cfg := { s.cfg with carrierHz := hz, carrierDuty := duty, tickHz := tick, settleTicks := settle } }

/-- The outputs nothing reads, `ENVP` and `DISP` (R56), taken out of a result. -/
def hideOutputs : Result → Result
  | .next t => .next { t with envp := none, disp := none }
  | .fault e => .fault e
  | .refused e => .refused e

end Sys2Proof.Machine
end

