-- ==== Sys2Proof/Laws/State.lean ====
section
/-! SUPPORT. One lemma per field per update of the state, each true by `rfl`, so that no proof unfolds a record update. -/

namespace Sys2Proof.Machine

variable (s : State)

/-! ### press -/

@[simp] theorem press_cfg : (press s).cfg = s.cfg := rfl
@[simp] theorem press_stream : (press s).stream = s.stream := rfl
@[simp] theorem press_fresh : (press s).fresh = s.fresh := rfl
@[simp] theorem press_readFaults : (press s).readFaults = s.readFaults := rfl
@[simp] theorem press_mode : (press s).mode = s.mode := rfl
@[simp] theorem press_copy : (press s).copy = s.copy := rfl
@[simp] theorem press_arb : (press s).arb = s.arb := rfl
@[simp] theorem press_eng : (press s).eng = s.eng := rfl
@[simp] theorem press_slot : (press s).slot = s.slot := rfl
@[simp] theorem press_ecnt : (press s).ecnt = s.ecnt := rfl
@[simp] theorem press_cur : (press s).cur = s.cur := rfl
@[simp] theorem press_oldc : (press s).oldc = s.oldc := rfl
@[simp] theorem press_rbuf : (press s).rbuf = s.rbuf := rfl
@[simp] theorem press_envp : (press s).envp = s.envp := rfl
@[simp] theorem press_owner : (press s).owner = s.owner := rfl
@[simp] theorem press_caparm : (press s).caparm = s.caparm := rfl
@[simp] theorem press_carr : (press s).carr = s.carr := rfl
@[simp] theorem press_enven : (press s).enven = s.enven := rfl
@[simp] theorem press_outen : (press s).outen = s.outen := rfl
@[simp] theorem press_latch : (press s).latch = .pressed := rfl
@[simp] theorem press_btnie : (press s).btnie = s.btnie := rfl
@[simp] theorem press_wake : (press s).wake = s.wake := rfl
@[simp] theorem press_nvmwp : (press s).nvmwp = s.nvmwp := rfl
@[simp] theorem press_ps : (press s).ps = s.ps := rfl
@[simp] theorem press_disp : (press s).disp = s.disp := rfl

/-! ### unlock -/

@[simp] theorem unlock_cfg : (unlock s).cfg = s.cfg := rfl
@[simp] theorem unlock_stream : (unlock s).stream = s.stream := rfl
@[simp] theorem unlock_fresh : (unlock s).fresh = s.fresh := rfl
@[simp] theorem unlock_readFaults : (unlock s).readFaults = s.readFaults := rfl
@[simp] theorem unlock_mode : (unlock s).mode = s.mode := rfl
@[simp] theorem unlock_copy : (unlock s).copy = s.copy := rfl
@[simp] theorem unlock_arb : (unlock s).arb = s.arb := rfl
@[simp] theorem unlock_eng : (unlock s).eng = s.eng := rfl
@[simp] theorem unlock_slot : (unlock s).slot = s.slot := rfl
@[simp] theorem unlock_ecnt : (unlock s).ecnt = s.ecnt := rfl
@[simp] theorem unlock_cur : (unlock s).cur = s.cur := rfl
@[simp] theorem unlock_oldc : (unlock s).oldc = s.oldc := rfl
@[simp] theorem unlock_rbuf : (unlock s).rbuf = s.rbuf := rfl
@[simp] theorem unlock_envp : (unlock s).envp = s.envp := rfl
@[simp] theorem unlock_owner : (unlock s).owner = s.owner := rfl
@[simp] theorem unlock_caparm : (unlock s).caparm = s.caparm := rfl
@[simp] theorem unlock_carr : (unlock s).carr = s.carr := rfl
@[simp] theorem unlock_enven : (unlock s).enven = s.enven := rfl
@[simp] theorem unlock_outen : (unlock s).outen = s.outen := rfl
@[simp] theorem unlock_latch : (unlock s).latch = s.latch := rfl
@[simp] theorem unlock_btnie : (unlock s).btnie = s.btnie := rfl
@[simp] theorem unlock_wake : (unlock s).wake = s.wake := rfl
@[simp] theorem unlock_nvmwp : (unlock s).nvmwp = false := rfl
@[simp] theorem unlock_ps : (unlock s).ps = s.ps := rfl
@[simp] theorem unlock_disp : (unlock s).disp = s.disp := rfl

/-! ### lock -/

@[simp] theorem lock_cfg : (lock s).cfg = s.cfg := rfl
@[simp] theorem lock_stream : (lock s).stream = s.stream := rfl
@[simp] theorem lock_fresh : (lock s).fresh = s.fresh := rfl
@[simp] theorem lock_readFaults : (lock s).readFaults = s.readFaults := rfl
@[simp] theorem lock_mode : (lock s).mode = s.mode := rfl
@[simp] theorem lock_copy : (lock s).copy = s.copy := rfl
@[simp] theorem lock_arb : (lock s).arb = s.arb := rfl
@[simp] theorem lock_eng : (lock s).eng = s.eng := rfl
@[simp] theorem lock_slot : (lock s).slot = s.slot := rfl
@[simp] theorem lock_ecnt : (lock s).ecnt = s.ecnt := rfl
@[simp] theorem lock_cur : (lock s).cur = s.cur := rfl
@[simp] theorem lock_oldc : (lock s).oldc = s.oldc := rfl
@[simp] theorem lock_rbuf : (lock s).rbuf = s.rbuf := rfl
@[simp] theorem lock_envp : (lock s).envp = s.envp := rfl
@[simp] theorem lock_owner : (lock s).owner = s.owner := rfl
@[simp] theorem lock_caparm : (lock s).caparm = s.caparm := rfl
@[simp] theorem lock_carr : (lock s).carr = s.carr := rfl
@[simp] theorem lock_enven : (lock s).enven = s.enven := rfl
@[simp] theorem lock_outen : (lock s).outen = s.outen := rfl
@[simp] theorem lock_latch : (lock s).latch = s.latch := rfl
@[simp] theorem lock_btnie : (lock s).btnie = s.btnie := rfl
@[simp] theorem lock_wake : (lock s).wake = s.wake := rfl
@[simp] theorem lock_nvmwp : (lock s).nvmwp = true := rfl
@[simp] theorem lock_ps : (lock s).ps = s.ps := rfl
@[simp] theorem lock_disp : (lock s).disp = s.disp := rfl

/-! ### writeBuffer -/

@[simp] theorem writeBuffer_cfg (i : Nat) (v : Word) : (writeBuffer s i v).cfg = s.cfg := rfl
@[simp] theorem writeBuffer_stream (i : Nat) (v : Word) : (writeBuffer s i v).stream = s.stream := rfl
@[simp] theorem writeBuffer_fresh (i : Nat) (v : Word) : (writeBuffer s i v).fresh = s.fresh := rfl
@[simp] theorem writeBuffer_readFaults (i : Nat) (v : Word) : (writeBuffer s i v).readFaults = s.readFaults := rfl
@[simp] theorem writeBuffer_mode (i : Nat) (v : Word) : (writeBuffer s i v).mode = s.mode := rfl
@[simp] theorem writeBuffer_copy (i : Nat) (v : Word) : (writeBuffer s i v).copy = s.copy := rfl
@[simp] theorem writeBuffer_arb (i : Nat) (v : Word) : (writeBuffer s i v).arb = s.arb := rfl
@[simp] theorem writeBuffer_eng (i : Nat) (v : Word) : (writeBuffer s i v).eng = s.eng := rfl
@[simp] theorem writeBuffer_slot (i : Nat) (v : Word) : (writeBuffer s i v).slot = s.slot := rfl
@[simp] theorem writeBuffer_ecnt (i : Nat) (v : Word) : (writeBuffer s i v).ecnt = s.ecnt := rfl
@[simp] theorem writeBuffer_cur (i : Nat) (v : Word) : (writeBuffer s i v).cur = s.cur := rfl
@[simp] theorem writeBuffer_oldc (i : Nat) (v : Word) : (writeBuffer s i v).oldc = s.oldc := rfl
@[simp] theorem writeBuffer_rbuf (i : Nat) (v : Word) : (writeBuffer s i v).rbuf = s.rbuf.set i (some v) := rfl
@[simp] theorem writeBuffer_envp (i : Nat) (v : Word) : (writeBuffer s i v).envp = s.envp := rfl
@[simp] theorem writeBuffer_owner (i : Nat) (v : Word) : (writeBuffer s i v).owner = s.owner := rfl
@[simp] theorem writeBuffer_caparm (i : Nat) (v : Word) : (writeBuffer s i v).caparm = s.caparm := rfl
@[simp] theorem writeBuffer_carr (i : Nat) (v : Word) : (writeBuffer s i v).carr = s.carr := rfl
@[simp] theorem writeBuffer_enven (i : Nat) (v : Word) : (writeBuffer s i v).enven = s.enven := rfl
@[simp] theorem writeBuffer_outen (i : Nat) (v : Word) : (writeBuffer s i v).outen = s.outen := rfl
@[simp] theorem writeBuffer_latch (i : Nat) (v : Word) : (writeBuffer s i v).latch = s.latch := rfl
@[simp] theorem writeBuffer_btnie (i : Nat) (v : Word) : (writeBuffer s i v).btnie = s.btnie := rfl
@[simp] theorem writeBuffer_wake (i : Nat) (v : Word) : (writeBuffer s i v).wake = s.wake := rfl
@[simp] theorem writeBuffer_nvmwp (i : Nat) (v : Word) : (writeBuffer s i v).nvmwp = s.nvmwp := rfl
@[simp] theorem writeBuffer_ps (i : Nat) (v : Word) : (writeBuffer s i v).ps = s.ps := rfl
@[simp] theorem writeBuffer_disp (i : Nat) (v : Word) : (writeBuffer s i v).disp = s.disp := rfl

/-! ### cstart -/

@[simp] theorem cstart_cfg (sl : SlotRef) : (cstart sl s).cfg = s.cfg := rfl
@[simp] theorem cstart_stream (sl : SlotRef) : (cstart sl s).stream = s.stream := rfl
@[simp] theorem cstart_fresh (sl : SlotRef) : (cstart sl s).fresh = s.fresh := rfl
@[simp] theorem cstart_readFaults (sl : SlotRef) : (cstart sl s).readFaults = s.readFaults := rfl
@[simp] theorem cstart_mode (sl : SlotRef) : (cstart sl s).mode = s.mode := rfl
@[simp] theorem cstart_copy (sl : SlotRef) : (cstart sl s).copy = s.copy := rfl
@[simp] theorem cstart_arb (sl : SlotRef) : (cstart sl s).arb = s.arb := rfl
@[simp] theorem cstart_eng (sl : SlotRef) : (cstart sl s).eng = .recording := rfl
@[simp] theorem cstart_slot (sl : SlotRef) : (cstart sl s).slot = some sl := rfl
@[simp] theorem cstart_ecnt (sl : SlotRef) : (cstart sl s).ecnt = some 0 := rfl
@[simp] theorem cstart_cur (sl : SlotRef) : (cstart sl s).cur = s.cur := rfl
@[simp] theorem cstart_oldc (sl : SlotRef) : (cstart sl s).oldc = some 0 := rfl
@[simp] theorem cstart_rbuf (sl : SlotRef) : (cstart sl s).rbuf = s.rbuf := rfl
@[simp] theorem cstart_envp (sl : SlotRef) : (cstart sl s).envp = s.envp := rfl
@[simp] theorem cstart_owner (sl : SlotRef) : (cstart sl s).owner = .capture := rfl
@[simp] theorem cstart_caparm (sl : SlotRef) : (cstart sl s).caparm = true := rfl
@[simp] theorem cstart_carr (sl : SlotRef) : (cstart sl s).carr = s.carr := rfl
@[simp] theorem cstart_enven (sl : SlotRef) : (cstart sl s).enven = s.enven := rfl
@[simp] theorem cstart_outen (sl : SlotRef) : (cstart sl s).outen = s.outen := rfl
@[simp] theorem cstart_latch (sl : SlotRef) : (cstart sl s).latch = s.latch := rfl
@[simp] theorem cstart_btnie (sl : SlotRef) : (cstart sl s).btnie = s.btnie := rfl
@[simp] theorem cstart_wake (sl : SlotRef) : (cstart sl s).wake = s.wake := rfl
@[simp] theorem cstart_nvmwp (sl : SlotRef) : (cstart sl s).nvmwp = s.nvmwp := rfl
@[simp] theorem cstart_ps (sl : SlotRef) : (cstart sl s).ps = s.ps := rfl
@[simp] theorem cstart_disp (sl : SlotRef) : (cstart sl s).disp = s.disp := rfl

/-! ### captureIdle -/

@[simp] theorem captureIdle_cfg : (captureIdle s).cfg = s.cfg := rfl
@[simp] theorem captureIdle_stream : (captureIdle s).stream = s.stream := rfl
@[simp] theorem captureIdle_fresh : (captureIdle s).fresh = s.fresh := rfl
@[simp] theorem captureIdle_readFaults : (captureIdle s).readFaults = s.readFaults := rfl
@[simp] theorem captureIdle_mode : (captureIdle s).mode = s.mode := rfl
@[simp] theorem captureIdle_copy : (captureIdle s).copy = s.copy := rfl
@[simp] theorem captureIdle_arb : (captureIdle s).arb = .idle := rfl
@[simp] theorem captureIdle_eng : (captureIdle s).eng = .idle := rfl
@[simp] theorem captureIdle_slot : (captureIdle s).slot = none := rfl
@[simp] theorem captureIdle_ecnt : (captureIdle s).ecnt = none := rfl
@[simp] theorem captureIdle_cur : (captureIdle s).cur = s.cur := rfl
@[simp] theorem captureIdle_oldc : (captureIdle s).oldc = none := rfl
@[simp] theorem captureIdle_rbuf : (captureIdle s).rbuf = emptyBuffer s.cfg := rfl
@[simp] theorem captureIdle_envp : (captureIdle s).envp = s.envp := rfl
@[simp] theorem captureIdle_owner : (captureIdle s).owner = .nobody := rfl
@[simp] theorem captureIdle_caparm : (captureIdle s).caparm = false := rfl
@[simp] theorem captureIdle_carr : (captureIdle s).carr = s.carr := rfl
@[simp] theorem captureIdle_enven : (captureIdle s).enven = s.enven := rfl
@[simp] theorem captureIdle_outen : (captureIdle s).outen = s.outen := rfl
@[simp] theorem captureIdle_latch : (captureIdle s).latch = s.latch := rfl
@[simp] theorem captureIdle_btnie : (captureIdle s).btnie = true := rfl
@[simp] theorem captureIdle_wake : (captureIdle s).wake = true := rfl
@[simp] theorem captureIdle_nvmwp : (captureIdle s).nvmwp = s.nvmwp := rfl
@[simp] theorem captureIdle_ps : (captureIdle s).ps = s.ps := rfl
@[simp] theorem captureIdle_disp : (captureIdle s).disp = some (.modeName s.mode) := rfl

/-! ### playFrom -/

@[simp] theorem playFrom_cfg (sl : SlotRef) (v : Word) : (playFrom sl v s).cfg = s.cfg := rfl
@[simp] theorem playFrom_stream (sl : SlotRef) (v : Word) : (playFrom sl v s).stream = s.stream := rfl
@[simp] theorem playFrom_fresh (sl : SlotRef) (v : Word) : (playFrom sl v s).fresh = s.fresh := rfl
@[simp] theorem playFrom_readFaults (sl : SlotRef) (v : Word) : (playFrom sl v s).readFaults = s.readFaults := rfl
@[simp] theorem playFrom_mode (sl : SlotRef) (v : Word) : (playFrom sl v s).mode = s.mode := rfl
@[simp] theorem playFrom_copy (sl : SlotRef) (v : Word) : (playFrom sl v s).copy = s.copy := rfl
@[simp] theorem playFrom_arb (sl : SlotRef) (v : Word) : (playFrom sl v s).arb = s.arb := rfl
@[simp] theorem playFrom_eng (sl : SlotRef) (v : Word) : (playFrom sl v s).eng = .playing := rfl
@[simp] theorem playFrom_slot (sl : SlotRef) (v : Word) : (playFrom sl v s).slot = some sl := rfl
@[simp] theorem playFrom_ecnt (sl : SlotRef) (v : Word) : (playFrom sl v s).ecnt = s.ecnt := rfl
@[simp] theorem playFrom_cur (sl : SlotRef) (v : Word) : (playFrom sl v s).cur = some 1 := rfl
@[simp] theorem playFrom_oldc (sl : SlotRef) (v : Word) : (playFrom sl v s).oldc = s.oldc := rfl
@[simp] theorem playFrom_rbuf (sl : SlotRef) (v : Word) : (playFrom sl v s).rbuf = s.rbuf := rfl
@[simp] theorem playFrom_envp (sl : SlotRef) (v : Word) : (playFrom sl v s).envp = some v := rfl
@[simp] theorem playFrom_owner (sl : SlotRef) (v : Word) : (playFrom sl v s).owner = .playback := rfl
@[simp] theorem playFrom_caparm (sl : SlotRef) (v : Word) : (playFrom sl v s).caparm = s.caparm := rfl
@[simp] theorem playFrom_carr (sl : SlotRef) (v : Word) : (playFrom sl v s).carr = true := rfl
@[simp] theorem playFrom_enven (sl : SlotRef) (v : Word) : (playFrom sl v s).enven = true := rfl
@[simp] theorem playFrom_outen (sl : SlotRef) (v : Word) : (playFrom sl v s).outen = s.cfg.envInit := rfl
@[simp] theorem playFrom_latch (sl : SlotRef) (v : Word) : (playFrom sl v s).latch = s.latch := rfl
@[simp] theorem playFrom_btnie (sl : SlotRef) (v : Word) : (playFrom sl v s).btnie = false := rfl
@[simp] theorem playFrom_wake (sl : SlotRef) (v : Word) : (playFrom sl v s).wake = s.wake := rfl
@[simp] theorem playFrom_nvmwp (sl : SlotRef) (v : Word) : (playFrom sl v s).nvmwp = s.nvmwp := rfl
@[simp] theorem playFrom_ps (sl : SlotRef) (v : Word) : (playFrom sl v s).ps = s.ps := rfl
@[simp] theorem playFrom_disp (sl : SlotRef) (v : Word) : (playFrom sl v s).disp = s.disp := rfl

/-! ### pdone -/

@[simp] theorem pdone_cfg : (pdone s).cfg = s.cfg := rfl
@[simp] theorem pdone_stream : (pdone s).stream = s.stream := rfl
@[simp] theorem pdone_fresh : (pdone s).fresh = s.fresh := rfl
@[simp] theorem pdone_readFaults : (pdone s).readFaults = s.readFaults := rfl
@[simp] theorem pdone_mode : (pdone s).mode = s.mode := rfl
@[simp] theorem pdone_copy : (pdone s).copy = s.copy := rfl
@[simp] theorem pdone_arb : (pdone s).arb = .idle := rfl
@[simp] theorem pdone_eng : (pdone s).eng = .idle := rfl
@[simp] theorem pdone_slot : (pdone s).slot = none := rfl
@[simp] theorem pdone_ecnt : (pdone s).ecnt = s.ecnt := rfl
@[simp] theorem pdone_cur : (pdone s).cur = none := rfl
@[simp] theorem pdone_oldc : (pdone s).oldc = s.oldc := rfl
@[simp] theorem pdone_rbuf : (pdone s).rbuf = s.rbuf := rfl
@[simp] theorem pdone_envp : (pdone s).envp = none := rfl
@[simp] theorem pdone_owner : (pdone s).owner = .nobody := rfl
@[simp] theorem pdone_caparm : (pdone s).caparm = s.caparm := rfl
@[simp] theorem pdone_carr : (pdone s).carr = false := rfl
@[simp] theorem pdone_enven : (pdone s).enven = false := rfl
@[simp] theorem pdone_outen : (pdone s).outen = s.outen := rfl
@[simp] theorem pdone_latch : (pdone s).latch = s.latch := rfl
@[simp] theorem pdone_btnie : (pdone s).btnie = true := rfl
@[simp] theorem pdone_wake : (pdone s).wake = true := rfl
@[simp] theorem pdone_nvmwp : (pdone s).nvmwp = s.nvmwp := rfl
@[simp] theorem pdone_ps : (pdone s).ps = s.ps := rfl
@[simp] theorem pdone_disp : (pdone s).disp = some (.modeName s.mode) := rfl

/-! ### loadPeriod -/

@[simp] theorem loadPeriod_cfg (v i : Word) : (loadPeriod v i s).cfg = s.cfg := rfl
@[simp] theorem loadPeriod_stream (v i : Word) : (loadPeriod v i s).stream = s.stream := rfl
@[simp] theorem loadPeriod_fresh (v i : Word) : (loadPeriod v i s).fresh = s.fresh := rfl
@[simp] theorem loadPeriod_readFaults (v i : Word) : (loadPeriod v i s).readFaults = s.readFaults := rfl
@[simp] theorem loadPeriod_mode (v i : Word) : (loadPeriod v i s).mode = s.mode := rfl
@[simp] theorem loadPeriod_copy (v i : Word) : (loadPeriod v i s).copy = s.copy := rfl
@[simp] theorem loadPeriod_arb (v i : Word) : (loadPeriod v i s).arb = s.arb := rfl
@[simp] theorem loadPeriod_eng (v i : Word) : (loadPeriod v i s).eng = s.eng := rfl
@[simp] theorem loadPeriod_slot (v i : Word) : (loadPeriod v i s).slot = s.slot := rfl
@[simp] theorem loadPeriod_ecnt (v i : Word) : (loadPeriod v i s).ecnt = s.ecnt := rfl
@[simp] theorem loadPeriod_cur (v i : Word) : (loadPeriod v i s).cur = some (add16 i 1) := rfl
@[simp] theorem loadPeriod_oldc (v i : Word) : (loadPeriod v i s).oldc = s.oldc := rfl
@[simp] theorem loadPeriod_rbuf (v i : Word) : (loadPeriod v i s).rbuf = s.rbuf := rfl
@[simp] theorem loadPeriod_envp (v i : Word) : (loadPeriod v i s).envp = some v := rfl
@[simp] theorem loadPeriod_owner (v i : Word) : (loadPeriod v i s).owner = s.owner := rfl
@[simp] theorem loadPeriod_caparm (v i : Word) : (loadPeriod v i s).caparm = s.caparm := rfl
@[simp] theorem loadPeriod_carr (v i : Word) : (loadPeriod v i s).carr = s.carr := rfl
@[simp] theorem loadPeriod_enven (v i : Word) : (loadPeriod v i s).enven = s.enven := rfl
@[simp] theorem loadPeriod_outen (v i : Word) : (loadPeriod v i s).outen = !s.outen := rfl
@[simp] theorem loadPeriod_latch (v i : Word) : (loadPeriod v i s).latch = s.latch := rfl
@[simp] theorem loadPeriod_btnie (v i : Word) : (loadPeriod v i s).btnie = s.btnie := rfl
@[simp] theorem loadPeriod_wake (v i : Word) : (loadPeriod v i s).wake = s.wake := rfl
@[simp] theorem loadPeriod_nvmwp (v i : Word) : (loadPeriod v i s).nvmwp = s.nvmwp := rfl
@[simp] theorem loadPeriod_ps (v i : Word) : (loadPeriod v i s).ps = s.ps := rfl
@[simp] theorem loadPeriod_disp (v i : Word) : (loadPeriod v i s).disp = s.disp := rfl

/-! ### setArb -/

@[simp] theorem setArb_cfg (a : Arb) : (setArb a s).cfg = s.cfg := rfl
@[simp] theorem setArb_stream (a : Arb) : (setArb a s).stream = s.stream := rfl
@[simp] theorem setArb_fresh (a : Arb) : (setArb a s).fresh = s.fresh := rfl
@[simp] theorem setArb_readFaults (a : Arb) : (setArb a s).readFaults = s.readFaults := rfl
@[simp] theorem setArb_mode (a : Arb) : (setArb a s).mode = s.mode := rfl
@[simp] theorem setArb_copy (a : Arb) : (setArb a s).copy = s.copy := rfl
@[simp] theorem setArb_arb (a : Arb) : (setArb a s).arb = a := rfl
@[simp] theorem setArb_eng (a : Arb) : (setArb a s).eng = s.eng := rfl
@[simp] theorem setArb_slot (a : Arb) : (setArb a s).slot = s.slot := rfl
@[simp] theorem setArb_ecnt (a : Arb) : (setArb a s).ecnt = s.ecnt := rfl
@[simp] theorem setArb_cur (a : Arb) : (setArb a s).cur = s.cur := rfl
@[simp] theorem setArb_oldc (a : Arb) : (setArb a s).oldc = s.oldc := rfl
@[simp] theorem setArb_rbuf (a : Arb) : (setArb a s).rbuf = s.rbuf := rfl
@[simp] theorem setArb_envp (a : Arb) : (setArb a s).envp = s.envp := rfl
@[simp] theorem setArb_owner (a : Arb) : (setArb a s).owner = s.owner := rfl
@[simp] theorem setArb_caparm (a : Arb) : (setArb a s).caparm = s.caparm := rfl
@[simp] theorem setArb_carr (a : Arb) : (setArb a s).carr = s.carr := rfl
@[simp] theorem setArb_enven (a : Arb) : (setArb a s).enven = s.enven := rfl
@[simp] theorem setArb_outen (a : Arb) : (setArb a s).outen = s.outen := rfl
@[simp] theorem setArb_latch (a : Arb) : (setArb a s).latch = s.latch := rfl
@[simp] theorem setArb_btnie (a : Arb) : (setArb a s).btnie = s.btnie := rfl
@[simp] theorem setArb_wake (a : Arb) : (setArb a s).wake = s.wake := rfl
@[simp] theorem setArb_nvmwp (a : Arb) : (setArb a s).nvmwp = s.nvmwp := rfl
@[simp] theorem setArb_ps (a : Arb) : (setArb a s).ps = s.ps := rfl
@[simp] theorem setArb_disp (a : Arb) : (setArb a s).disp = s.disp := rfl

/-! ### setDisp -/

@[simp] theorem setDisp_cfg (d : DispReq) : (setDisp d s).cfg = s.cfg := rfl
@[simp] theorem setDisp_stream (d : DispReq) : (setDisp d s).stream = s.stream := rfl
@[simp] theorem setDisp_fresh (d : DispReq) : (setDisp d s).fresh = s.fresh := rfl
@[simp] theorem setDisp_readFaults (d : DispReq) : (setDisp d s).readFaults = s.readFaults := rfl
@[simp] theorem setDisp_mode (d : DispReq) : (setDisp d s).mode = s.mode := rfl
@[simp] theorem setDisp_copy (d : DispReq) : (setDisp d s).copy = s.copy := rfl
@[simp] theorem setDisp_arb (d : DispReq) : (setDisp d s).arb = s.arb := rfl
@[simp] theorem setDisp_eng (d : DispReq) : (setDisp d s).eng = s.eng := rfl
@[simp] theorem setDisp_slot (d : DispReq) : (setDisp d s).slot = s.slot := rfl
@[simp] theorem setDisp_ecnt (d : DispReq) : (setDisp d s).ecnt = s.ecnt := rfl
@[simp] theorem setDisp_cur (d : DispReq) : (setDisp d s).cur = s.cur := rfl
@[simp] theorem setDisp_oldc (d : DispReq) : (setDisp d s).oldc = s.oldc := rfl
@[simp] theorem setDisp_rbuf (d : DispReq) : (setDisp d s).rbuf = s.rbuf := rfl
@[simp] theorem setDisp_envp (d : DispReq) : (setDisp d s).envp = s.envp := rfl
@[simp] theorem setDisp_owner (d : DispReq) : (setDisp d s).owner = s.owner := rfl
@[simp] theorem setDisp_caparm (d : DispReq) : (setDisp d s).caparm = s.caparm := rfl
@[simp] theorem setDisp_carr (d : DispReq) : (setDisp d s).carr = s.carr := rfl
@[simp] theorem setDisp_enven (d : DispReq) : (setDisp d s).enven = s.enven := rfl
@[simp] theorem setDisp_outen (d : DispReq) : (setDisp d s).outen = s.outen := rfl
@[simp] theorem setDisp_latch (d : DispReq) : (setDisp d s).latch = s.latch := rfl
@[simp] theorem setDisp_btnie (d : DispReq) : (setDisp d s).btnie = s.btnie := rfl
@[simp] theorem setDisp_wake (d : DispReq) : (setDisp d s).wake = s.wake := rfl
@[simp] theorem setDisp_nvmwp (d : DispReq) : (setDisp d s).nvmwp = s.nvmwp := rfl
@[simp] theorem setDisp_ps (d : DispReq) : (setDisp d s).ps = s.ps := rfl
@[simp] theorem setDisp_disp (d : DispReq) : (setDisp d s).disp = some d := rfl

/-! ### toggleCopy -/

@[simp] theorem toggleCopy_cfg : (toggleCopy s).cfg = s.cfg := rfl
@[simp] theorem toggleCopy_stream : (toggleCopy s).stream = s.stream := rfl
@[simp] theorem toggleCopy_fresh : (toggleCopy s).fresh = s.fresh := rfl
@[simp] theorem toggleCopy_readFaults : (toggleCopy s).readFaults = s.readFaults := rfl
@[simp] theorem toggleCopy_mode : (toggleCopy s).mode = s.mode := rfl
@[simp] theorem toggleCopy_copy : (toggleCopy s).copy = !s.copy := rfl
@[simp] theorem toggleCopy_arb : (toggleCopy s).arb = s.arb := rfl
@[simp] theorem toggleCopy_eng : (toggleCopy s).eng = s.eng := rfl
@[simp] theorem toggleCopy_slot : (toggleCopy s).slot = s.slot := rfl
@[simp] theorem toggleCopy_ecnt : (toggleCopy s).ecnt = s.ecnt := rfl
@[simp] theorem toggleCopy_cur : (toggleCopy s).cur = s.cur := rfl
@[simp] theorem toggleCopy_oldc : (toggleCopy s).oldc = s.oldc := rfl
@[simp] theorem toggleCopy_rbuf : (toggleCopy s).rbuf = s.rbuf := rfl
@[simp] theorem toggleCopy_envp : (toggleCopy s).envp = s.envp := rfl
@[simp] theorem toggleCopy_owner : (toggleCopy s).owner = s.owner := rfl
@[simp] theorem toggleCopy_caparm : (toggleCopy s).caparm = s.caparm := rfl
@[simp] theorem toggleCopy_carr : (toggleCopy s).carr = s.carr := rfl
@[simp] theorem toggleCopy_enven : (toggleCopy s).enven = s.enven := rfl
@[simp] theorem toggleCopy_outen : (toggleCopy s).outen = s.outen := rfl
@[simp] theorem toggleCopy_latch : (toggleCopy s).latch = s.latch := rfl
@[simp] theorem toggleCopy_btnie : (toggleCopy s).btnie = s.btnie := rfl
@[simp] theorem toggleCopy_wake : (toggleCopy s).wake = s.wake := rfl
@[simp] theorem toggleCopy_nvmwp : (toggleCopy s).nvmwp = s.nvmwp := rfl
@[simp] theorem toggleCopy_ps : (toggleCopy s).ps = s.ps := rfl
@[simp] theorem toggleCopy_disp : (toggleCopy s).disp = some (if s.copy then .modeName s.mode else .copyMode) := rfl

/-! ### leaveCopy -/

@[simp] theorem leaveCopy_cfg : (leaveCopy s).cfg = s.cfg := rfl
@[simp] theorem leaveCopy_stream : (leaveCopy s).stream = s.stream := rfl
@[simp] theorem leaveCopy_fresh : (leaveCopy s).fresh = s.fresh := rfl
@[simp] theorem leaveCopy_readFaults : (leaveCopy s).readFaults = s.readFaults := rfl
@[simp] theorem leaveCopy_mode : (leaveCopy s).mode = s.mode := rfl
@[simp] theorem leaveCopy_copy : (leaveCopy s).copy = false := rfl
@[simp] theorem leaveCopy_arb : (leaveCopy s).arb = s.arb := rfl
@[simp] theorem leaveCopy_eng : (leaveCopy s).eng = s.eng := rfl
@[simp] theorem leaveCopy_slot : (leaveCopy s).slot = s.slot := rfl
@[simp] theorem leaveCopy_ecnt : (leaveCopy s).ecnt = s.ecnt := rfl
@[simp] theorem leaveCopy_cur : (leaveCopy s).cur = s.cur := rfl
@[simp] theorem leaveCopy_oldc : (leaveCopy s).oldc = s.oldc := rfl
@[simp] theorem leaveCopy_rbuf : (leaveCopy s).rbuf = s.rbuf := rfl
@[simp] theorem leaveCopy_envp : (leaveCopy s).envp = s.envp := rfl
@[simp] theorem leaveCopy_owner : (leaveCopy s).owner = s.owner := rfl
@[simp] theorem leaveCopy_caparm : (leaveCopy s).caparm = s.caparm := rfl
@[simp] theorem leaveCopy_carr : (leaveCopy s).carr = s.carr := rfl
@[simp] theorem leaveCopy_enven : (leaveCopy s).enven = s.enven := rfl
@[simp] theorem leaveCopy_outen : (leaveCopy s).outen = s.outen := rfl
@[simp] theorem leaveCopy_latch : (leaveCopy s).latch = s.latch := rfl
@[simp] theorem leaveCopy_btnie : (leaveCopy s).btnie = s.btnie := rfl
@[simp] theorem leaveCopy_wake : (leaveCopy s).wake = s.wake := rfl
@[simp] theorem leaveCopy_nvmwp : (leaveCopy s).nvmwp = s.nvmwp := rfl
@[simp] theorem leaveCopy_ps : (leaveCopy s).ps = s.ps := rfl
@[simp] theorem leaveCopy_disp : (leaveCopy s).disp = some (.modeName s.mode) := rfl

/-! ### advanceMode -/

@[simp] theorem advanceMode_cfg : (advanceMode s).cfg = s.cfg := rfl
@[simp] theorem advanceMode_stream : (advanceMode s).stream = s.stream := rfl
@[simp] theorem advanceMode_fresh : (advanceMode s).fresh = s.fresh := rfl
@[simp] theorem advanceMode_readFaults : (advanceMode s).readFaults = s.readFaults := rfl
@[simp] theorem advanceMode_mode : (advanceMode s).mode = nextMode s := rfl
@[simp] theorem advanceMode_copy : (advanceMode s).copy = s.copy := rfl
@[simp] theorem advanceMode_arb : (advanceMode s).arb = .modeDisplay := rfl
@[simp] theorem advanceMode_eng : (advanceMode s).eng = s.eng := rfl
@[simp] theorem advanceMode_slot : (advanceMode s).slot = s.slot := rfl
@[simp] theorem advanceMode_ecnt : (advanceMode s).ecnt = s.ecnt := rfl
@[simp] theorem advanceMode_cur : (advanceMode s).cur = s.cur := rfl
@[simp] theorem advanceMode_oldc : (advanceMode s).oldc = s.oldc := rfl
@[simp] theorem advanceMode_rbuf : (advanceMode s).rbuf = s.rbuf := rfl
@[simp] theorem advanceMode_envp : (advanceMode s).envp = s.envp := rfl
@[simp] theorem advanceMode_owner : (advanceMode s).owner = s.owner := rfl
@[simp] theorem advanceMode_caparm : (advanceMode s).caparm = s.caparm := rfl
@[simp] theorem advanceMode_carr : (advanceMode s).carr = s.carr := rfl
@[simp] theorem advanceMode_enven : (advanceMode s).enven = s.enven := rfl
@[simp] theorem advanceMode_outen : (advanceMode s).outen = s.outen := rfl
@[simp] theorem advanceMode_latch : (advanceMode s).latch = s.latch := rfl
@[simp] theorem advanceMode_btnie : (advanceMode s).btnie = s.btnie := rfl
@[simp] theorem advanceMode_wake : (advanceMode s).wake = true := rfl
@[simp] theorem advanceMode_nvmwp : (advanceMode s).nvmwp = s.nvmwp := rfl
@[simp] theorem advanceMode_ps : (advanceMode s).ps = s.ps := rfl
@[simp] theorem advanceMode_disp : (advanceMode s).disp = some (.modeName (nextMode s)) := rfl

/-! ### park -/

@[simp] theorem park_cfg : (park s).cfg = s.cfg := rfl
@[simp] theorem park_stream : (park s).stream = s.stream := rfl
@[simp] theorem park_fresh : (park s).fresh = s.fresh := rfl
@[simp] theorem park_readFaults : (park s).readFaults = s.readFaults := rfl
@[simp] theorem park_mode : (park s).mode = s.mode := rfl
@[simp] theorem park_copy : (park s).copy = s.copy := rfl
@[simp] theorem park_arb : (park s).arb = if s.arb = .modeDisplay then .idle else s.arb := rfl
@[simp] theorem park_eng : (park s).eng = s.eng := rfl
@[simp] theorem park_slot : (park s).slot = s.slot := rfl
@[simp] theorem park_ecnt : (park s).ecnt = s.ecnt := rfl
@[simp] theorem park_cur : (park s).cur = s.cur := rfl
@[simp] theorem park_oldc : (park s).oldc = s.oldc := rfl
@[simp] theorem park_rbuf : (park s).rbuf = s.rbuf := rfl
@[simp] theorem park_envp : (park s).envp = s.envp := rfl
@[simp] theorem park_owner : (park s).owner = s.owner := rfl
@[simp] theorem park_caparm : (park s).caparm = s.caparm := rfl
@[simp] theorem park_carr : (park s).carr = s.carr := rfl
@[simp] theorem park_enven : (park s).enven = s.enven := rfl
@[simp] theorem park_outen : (park s).outen = s.outen := rfl
@[simp] theorem park_latch : (park s).latch = s.latch := rfl
@[simp] theorem park_btnie : (park s).btnie = s.btnie := rfl
@[simp] theorem park_wake : (park s).wake = false := rfl
@[simp] theorem park_nvmwp : (park s).nvmwp = s.nvmwp := rfl
@[simp] theorem park_ps : (park s).ps = s.ps := rfl
@[simp] theorem park_disp : (park s).disp = s.disp := rfl

/-! ### reportFaults -/

variable (fs : List ReadFault)

@[simp] theorem reportFaults_cfg : (reportFaults fs s).cfg = s.cfg := rfl
@[simp] theorem reportFaults_stream : (reportFaults fs s).stream = s.stream := rfl
@[simp] theorem reportFaults_fresh : (reportFaults fs s).fresh = s.fresh + fs.length := rfl
@[simp] theorem reportFaults_readFaults : (reportFaults fs s).readFaults = s.readFaults ++ fs := rfl
@[simp] theorem reportFaults_mode : (reportFaults fs s).mode = s.mode := rfl
@[simp] theorem reportFaults_copy : (reportFaults fs s).copy = s.copy := rfl
@[simp] theorem reportFaults_arb : (reportFaults fs s).arb = s.arb := rfl
@[simp] theorem reportFaults_eng : (reportFaults fs s).eng = s.eng := rfl
@[simp] theorem reportFaults_slot : (reportFaults fs s).slot = s.slot := rfl
@[simp] theorem reportFaults_ecnt : (reportFaults fs s).ecnt = s.ecnt := rfl
@[simp] theorem reportFaults_cur : (reportFaults fs s).cur = s.cur := rfl
@[simp] theorem reportFaults_oldc : (reportFaults fs s).oldc = s.oldc := rfl
@[simp] theorem reportFaults_rbuf : (reportFaults fs s).rbuf = s.rbuf := rfl
@[simp] theorem reportFaults_envp : (reportFaults fs s).envp = s.envp := rfl
@[simp] theorem reportFaults_owner : (reportFaults fs s).owner = s.owner := rfl
@[simp] theorem reportFaults_caparm : (reportFaults fs s).caparm = s.caparm := rfl
@[simp] theorem reportFaults_carr : (reportFaults fs s).carr = s.carr := rfl
@[simp] theorem reportFaults_enven : (reportFaults fs s).enven = s.enven := rfl
@[simp] theorem reportFaults_outen : (reportFaults fs s).outen = s.outen := rfl
@[simp] theorem reportFaults_latch : (reportFaults fs s).latch = s.latch := rfl
@[simp] theorem reportFaults_btnie : (reportFaults fs s).btnie = s.btnie := rfl
@[simp] theorem reportFaults_wake : (reportFaults fs s).wake = s.wake := rfl
@[simp] theorem reportFaults_nvmwp : (reportFaults fs s).nvmwp = s.nvmwp := rfl
@[simp] theorem reportFaults_ps : (reportFaults fs s).ps = s.ps := rfl
@[simp] theorem reportFaults_disp : (reportFaults fs s).disp = s.disp := rfl

@[simp] theorem reportFaults_nil : reportFaults [] s = s := by simp [reportFaults]

end Sys2Proof.Machine
end

