-- ==== Sys2Proof/Laws/Memory.lean ====
section
/-! SUPPORT. The laws of the Pulse Store as data: read after write, writes leave other units alone, every write keeps the
canonical form (spec 20_memory R62 to R74). -/

namespace Sys2Proof.Machine

variable {c : Config} {m : Memory} {a b : Nat} {v : Word}

/-! ### One unit -/

@[simp] theorem Memory.find_nil : Memory.find [] a = none := rfl

theorem Memory.find_insert_same : (m.insert a v).find a = some v := by
  induction m with
  | nil => simp [Memory.insert, Memory.find]
  | cons e m ih =>
    obtain ⟨b, w⟩ := e
    simp only [Memory.insert]
    split
    · simp [Memory.find]
    · split <;> simp_all [Memory.find]

theorem Memory.find_insert_other (h : b ≠ a) : (m.insert a v).find b = m.find b := by
  induction m with
  | nil => simp [Memory.insert, Memory.find, h]
  | cons e m ih =>
    obtain ⟨d, w⟩ := e
    simp only [Memory.insert]
    split
    · simp [Memory.find, h]
    · split
      · simp_all [Memory.find]
      · simp [Memory.find, ih]

theorem Memory.find_erase_same : (m.erase a).find a = none := by
  induction m with
  | nil => rfl
  | cons e m ih =>
    obtain ⟨b, w⟩ := e
    simp only [Memory.erase]
    split
    · exact ih
    · simp [Memory.find, *]

theorem Memory.find_erase_other (h : b ≠ a) : (m.erase a).find b = m.find b := by
  induction m with
  | nil => rfl
  | cons e m ih =>
    obtain ⟨d, w⟩ := e
    simp only [Memory.erase]
    split
    · simp_all [Memory.find]
    · simp [Memory.find, ih]

theorem Memory.read_write_same : (m.write c a v).read c a = some v := by
  unfold Memory.write
  split
  · simp [Memory.read, Memory.find_erase_same, *]
  · simp [Memory.read, Memory.find_insert_same]

theorem Memory.read_write_other (h : b ≠ a) : (m.write c a v).read c b = m.read c b := by
  unfold Memory.write
  split
  · simp [Memory.read, Memory.find_erase_other h]
  · simp [Memory.read, Memory.find_insert_other h]

/-! ### A run of units -/

/-- Of the parameters, a run's writing depends on nothing but what an unlisted unit reads as. -/
theorem Memory.writeRun_congr {c' : Config} {vs : List Word} (h : ∀ b, unlisted c b = unlisted c' b) :
    m.writeRun c a vs = m.writeRun c' a vs := by
  induction vs generalizing m a with
  | nil => rfl
  | cons v vs ih => simp only [Memory.writeRun, Memory.write, h, ih]

theorem Memory.read_writeRun {vs : List Word} :
    (m.writeRun c a vs).read c b = if a ≤ b ∧ b < a + vs.length then vs[b - a]? else m.read c b := by
  induction vs generalizing m a with
  | nil => simp [Memory.writeRun]
  | cons w ws ih =>
    simp only [Memory.writeRun, ih, List.length_cons]
    rcases Nat.lt_trichotomy b a with h | h | h
    · rw [if_neg (by omega), if_neg (by omega), Memory.read_write_other (by omega)]
    · subst h
      rw [if_neg (by omega), if_pos (by omega), Memory.read_write_same]
      simp
    · have hs : b - a = (b - (a + 1)) + 1 := by omega
      by_cases hb : b < a + (ws.length + 1)
      · rw [if_pos (by omega), if_pos (by omega), hs, List.getElem?_cons_succ]
      · rw [if_neg (by omega), if_neg (by omega), Memory.read_write_other (by omega)]

/-! ### The canonical form -/

/-- An entry the canonical form allows: inside the store and not the value an unlisted unit reads as. -/
abbrev entryOk (c : Config) (e : Nat × Word) : Prop :=
  c.psBase ≤ e.1 ∧ e.1 < c.storeEnd ∧ unlisted c e.1 ≠ some e.2

theorem Memory.wf_iff :
    m.wf c = true ↔ Memory.risingFrom 0 m = true ∧ ∀ e ∈ m, entryOk c e := by
  simp [Memory.wf, entryOk]

theorem Memory.risingFrom_cons {n : Nat} :
    Memory.risingFrom n ((b, v) :: m) = true ↔ n ≤ b ∧ Memory.risingFrom (b + 1) m = true := by
  simp [Memory.risingFrom]

theorem Memory.risingFrom_mono {n k : Nat} (h : n ≤ k) (hm : Memory.risingFrom k m = true) :
    Memory.risingFrom n m = true := by
  cases m with
  | nil => rfl
  | cons e m =>
    rw [Memory.risingFrom_cons] at hm ⊢
    exact ⟨by omega, hm.2⟩

theorem Memory.risingFrom_insert {n : Nat} (hm : Memory.risingFrom n m = true) (ha : n ≤ a) :
    Memory.risingFrom n (m.insert a v) = true := by
  induction m generalizing n with
  | nil => simpa [Memory.insert, Memory.risingFrom] using ha
  | cons e m ih =>
    obtain ⟨b, w⟩ := e
    rw [Memory.risingFrom_cons] at hm
    simp only [Memory.insert]
    split
    · rw [Memory.risingFrom_cons, Memory.risingFrom_cons]
      exact ⟨ha, by omega, hm.2⟩
    · split
      · subst_vars
        rw [Memory.risingFrom_cons]
        exact ⟨ha, hm.2⟩
      · rw [Memory.risingFrom_cons]
        exact ⟨hm.1, ih hm.2 (by omega)⟩

theorem Memory.risingFrom_erase {n : Nat} (hm : Memory.risingFrom n m = true) :
    Memory.risingFrom n (m.erase a) = true := by
  induction m generalizing n with
  | nil => rfl
  | cons e m ih =>
    obtain ⟨b, w⟩ := e
    rw [Memory.risingFrom_cons] at hm
    simp only [Memory.erase]
    split
    · exact ih (Memory.risingFrom_mono (by omega) hm.2)
    · rw [Memory.risingFrom_cons]
      exact ⟨hm.1, ih hm.2⟩

theorem Memory.mem_insert {e : Nat × Word} (h : e ∈ m.insert a v) : e = (a, v) ∨ e ∈ m := by
  induction m with
  | nil => simpa [Memory.insert] using h
  | cons d m ih =>
    obtain ⟨b, w⟩ := d
    simp only [Memory.insert] at h
    split at h
    · simpa using h
    · split at h
      · rcases List.mem_cons.mp h with h | h
        · exact .inl h
        · exact .inr (List.mem_cons_of_mem _ h)
      · rcases List.mem_cons.mp h with h | h
        · exact .inr (h ▸ List.mem_cons_self)
        · exact (ih h).imp id (List.mem_cons_of_mem _)

theorem Memory.mem_erase {e : Nat × Word} (h : e ∈ m.erase a) : e ∈ m := by
  induction m with
  | nil => exact h
  | cons d m ih =>
    obtain ⟨b, w⟩ := d
    simp only [Memory.erase] at h
    split at h
    · exact List.mem_cons_of_mem _ (ih h)
    · rcases List.mem_cons.mp h with h | h
      · exact h ▸ List.mem_cons_self
      · exact List.mem_cons_of_mem _ (ih h)

/-- A write inside the store keeps the canonical form. -/
theorem Memory.wf_write (hm : m.wf c = true) (hlo : c.psBase ≤ a) (hhi : a < c.storeEnd) :
    (m.write c a v).wf c = true := by
  rw [Memory.wf_iff] at hm ⊢
  unfold Memory.write
  split
  · exact ⟨Memory.risingFrom_erase hm.1, fun e he => hm.2 e (Memory.mem_erase he)⟩
  · refine ⟨Memory.risingFrom_insert hm.1 (Nat.zero_le _), fun e he => ?_⟩
    rcases Memory.mem_insert he with rfl | he
    · exact ⟨hlo, hhi, by assumption⟩
    · exact hm.2 e he

/-- A run of writes inside the store keeps the canonical form. -/
theorem Memory.wf_writeRun {vs : List Word} (hm : m.wf c = true) (hlo : c.psBase ≤ a)
    (hhi : a + vs.length ≤ c.storeEnd) : (m.writeRun c a vs).wf c = true := by
  induction vs generalizing m a with
  | nil => exact hm
  | cons w ws ih =>
    simp only [List.length_cons] at hhi
    exact ih (Memory.wf_write hm hlo (by omega)) (by omega) (by omega)

theorem reset_ps_wf : State.reset.ps.wf State.reset.cfg = true := rfl

/-! ### Access -/

theorem inStore_iff {n : Nat} : inStore c a n = true ↔ c.psBase ≤ a ∧ a + n ≤ c.storeEnd := by
  simp [inStore]

/-- Everything `MemWrite` can do: refuse while locked, fault outside the store, or store the run. -/
theorem memWrite_next {s t : State} {vs : List Word} (h : memWrite s a vs = .next t) :
    s.nvmwp = false ∧ inStore s.cfg a vs.length = true ∧ t = { s with ps := s.ps.writeRun s.cfg a vs } := by
  unfold memWrite at h
  split at h
  · cases h
  · split at h
    · cases h
      exact ⟨by simp_all, by assumption, rfl⟩
    · cases h

theorem memWrite_of_room {s : State} {vs : List Word} (hu : s.nvmwp = false)
    (hr : inStore s.cfg a vs.length = true) :
    memWrite s a vs = .next { s with ps := s.ps.writeRun s.cfg a vs } := by
  simp [memWrite, hu, hr]

/-- `MemWrite` keeps the canonical form. -/
theorem memWrite_wf {s t : State} {vs : List Word} (h : memWrite s a vs = .next t) (hm : s.ps.wf s.cfg = true) :
    t.ps.wf t.cfg = true := by
  obtain ⟨-, hr, rfl⟩ := memWrite_next h
  rw [inStore_iff] at hr
  exact Memory.wf_writeRun hm hr.1 hr.2

theorem memReadUnit_ok {s : State} : memReadUnit s a = .ok v ↔ inStore s.cfg a 1 = true ∧ s.ps.read s.cfg a = some v := by
  unfold memReadUnit readReg
  cases inStore s.cfg a 1 <;> cases h : s.ps.read s.cfg a <;> simp

end Sys2Proof.Machine
end

