-- ==== Sys2Proof/Laws/Ops.lean ====
section
/-! SUPPORT. One lemma per shared operation that says what it can do: sequencing, reads of registers, the debounce gate,
the reads of a slot, the working buffer, capture completion (spec 42_arbiter R136, 20_memory R64, 40_capture R106). -/

namespace Sys2Proof.Machine

/-! ### Sequencing and reads -/

@[simp] theorem andThen_next {s : State} {f : State → Result} : andThen (.next s) f = f s := rfl
@[simp] theorem andThen_fault {e : Fault} {f : State → Result} : andThen (.fault e) f = .fault e := rfl
@[simp] theorem andThen_refused {e : Refusal} {f : State → Result} : andThen (.refused e) f = .refused e := rfl
@[simp] theorem withRead_ok {α : Type} {v : α} {f : α → Result} : withRead (.ok v) f = f v := rfl
@[simp] theorem withRead_error {α : Type} {e : Fault} {f : α → Result} : withRead (.error e) f = .fault e := rfl
@[simp] theorem readReg_some {α : Type} {v : α} {e : Fault} : readReg (some v) e = .ok v := rfl
@[simp] theorem readReg_none {α : Type} {e : Fault} : readReg (none : Option α) e = .error e := rfl

theorem andThen_eq_next {r : Result} {f : State → Result} {t : State} (h : andThen r f = .next t) :
    ∃ s, r = .next s ∧ f s = .next t := by
  cases r with
  | next s => exact ⟨s, rfl, h⟩
  | fault e => cases h
  | refused e => cases h

theorem withRead_eq_next {α : Type} {r : Except Fault α} {f : α → Result} {t : State} (h : withRead r f = .next t) :
    ∃ v, r = .ok v ∧ f v = .next t := by
  cases r with
  | ok v => exact ⟨v, rfl, h⟩
  | error e => cases h

theorem readReg_eq_ok {α : Type} {r : Option α} {e : Fault} {v : α} : readReg r e = .ok v ↔ r = some v := by
  cases r <;> simp [readReg]

/-! ### Reads of elements that may hold no value -/

section Elements

variable {s : State} {v : Word} {sl : SlotRef}

theorem readSlot_some {f : SlotRef → State → Result} (h : s.slot = some sl) : readSlot s f = f sl s := by
  simp [readSlot, readElement, h]

theorem readSlot_none {f : SlotRef → State → Result} (h : s.slot = none) :
    readSlot s f = f (freeSlot s.cfg s.fresh) { reportFaults [.slot] s with slot := some (freeSlot s.cfg s.fresh) } := by
  simp [readSlot, readElement, h]

theorem readEcnt_some {f : Word → State → Result} (h : s.ecnt = some v) : readEcnt s f = f v s := by
  simp [readEcnt, readElement, h]

theorem readEcnt_none {f : Word → State → Result} (h : s.ecnt = none) :
    readEcnt s f = f (freeCount s.cfg s.fresh) { reportFaults [.ecnt] s with ecnt := some (freeCount s.cfg s.fresh) } := by
  simp [readEcnt, readElement, h]

theorem readCur_some {n : Word} {f : Word → State → Result} (h : s.cur = some v) : readCur n s f = f v s := by
  simp [readCur, readElement, h]

theorem readCur_none {n : Word} {f : Word → State → Result} (h : s.cur = none) :
    readCur n s f = f (freeCursor n s.fresh) { reportFaults [.cur] s with cur := some (freeCursor n s.fresh) } := by
  simp [readCur, readElement, h]

theorem readOldc_some {f : Word → State → Result} (h : s.oldc = some v) : readOldc s f = f v s := by
  simp [readOldc, readElement, h]

theorem readOldc_none {f : Word → State → Result} (h : s.oldc = none) :
    readOldc s f = f (freeWord s.fresh) { reportFaults [.oldc] s with oldc := some (freeWord s.fresh) } := by
  simp [readOldc, readElement, h]

/-- Everything a read can do: go on with the value held, or report the fault and go on with the next free value, held from
there on. -/
theorem readSlot_cases {f : SlotRef → State → Result} :
    ∃ sl fs, readSlot s f = f sl { reportFaults fs s with slot := some sl } ∧
      ((s.slot = some sl ∧ fs = []) ∨ (s.slot = none ∧ sl = freeSlot s.cfg s.fresh ∧ fs = [.slot])) := by
  cases h : s.slot with
  | some sl => exact ⟨sl, [], by rw [readSlot_some h, reportFaults_nil, ← h], .inl ⟨rfl, rfl⟩⟩
  | none => exact ⟨_, _, readSlot_none h, .inr ⟨rfl, rfl, rfl⟩⟩

theorem readEcnt_cases {f : Word → State → Result} :
    ∃ v fs, readEcnt s f = f v { reportFaults fs s with ecnt := some v } ∧
      ((s.ecnt = some v ∧ fs = []) ∨ (s.ecnt = none ∧ v = freeCount s.cfg s.fresh ∧ fs = [.ecnt])) := by
  cases h : s.ecnt with
  | some v => exact ⟨v, [], by rw [readEcnt_some h, reportFaults_nil, ← h], .inl ⟨rfl, rfl⟩⟩
  | none => exact ⟨_, _, readEcnt_none h, .inr ⟨rfl, rfl, rfl⟩⟩

theorem readCur_cases {n : Word} {f : Word → State → Result} :
    ∃ v fs, readCur n s f = f v { reportFaults fs s with cur := some v } ∧
      ((s.cur = some v ∧ fs = []) ∨ (s.cur = none ∧ v = freeCursor n s.fresh ∧ fs = [.cur])) := by
  cases h : s.cur with
  | some v => exact ⟨v, [], by rw [readCur_some h, reportFaults_nil, ← h], .inl ⟨rfl, rfl⟩⟩
  | none => exact ⟨_, _, readCur_none h, .inr ⟨rfl, rfl, rfl⟩⟩

theorem readOldc_cases {f : Word → State → Result} :
    ∃ v fs, readOldc s f = f v { reportFaults fs s with oldc := some v } ∧
      ((s.oldc = some v ∧ fs = []) ∨ (s.oldc = none ∧ v = freeWord s.fresh ∧ fs = [.oldc])) := by
  cases h : s.oldc with
  | some v => exact ⟨v, [], by rw [readOldc_some h, reportFaults_nil, ← h], .inl ⟨rfl, rfl⟩⟩
  | none => exact ⟨_, _, readOldc_none h, .inr ⟨rfl, rfl, rfl⟩⟩

end Elements

/-! ### The debounce gate -/

theorem buttonGate_iff {s : State} : buttonGate s = true ↔ s.btnie = true ∧ s.latch = .ready := by
  simp [buttonGate]

theorem accept_open {s : State} (h : buttonGate s = true) : accept s = some (press s) := by simp [accept, h]

theorem accept_closed {s : State} (h : buttonGate s = false) : accept s = none := by simp [accept, h]

/-- An open gate hands the pressed state on. -/
theorem onAccept_open {s : State} {f : State → Result} (h : buttonGate s = true) : onAccept s f = f (press s) := by
  simp [onAccept, accept_open h]

/-- A closed gate drops the edge. -/
theorem onAccept_closed {s : State} {f : State → Result} (h : buttonGate s = false) : onAccept s f = .next s := by
  simp [onAccept, accept_closed h]

theorem onAccept_cases {s : State} {f : State → Result} :
    (buttonGate s = true ∧ onAccept s f = f (press s)) ∨ (buttonGate s = false ∧ onAccept s f = .next s) := by
  cases h : buttonGate s
  · exact .inr ⟨rfl, onAccept_closed h⟩
  · exact .inl ⟨rfl, onAccept_open h⟩

theorem inIdle_iff {s : State} : inIdle s = true ↔ s.arb = .idle ∨ s.arb = .modeDisplay := by simp [inIdle]

/-! ### Reads of a slot depend on the parameters and the store alone -/

theorem memReadUnit_congr {s t : State} {a : Nat} (hc : t.cfg = s.cfg) (hp : t.ps = s.ps) :
    memReadUnit t a = memReadUnit s a := by simp [memReadUnit, hc, hp]

theorem psLen_congr {s t : State} {sl : SlotRef} (hc : t.cfg = s.cfg) (hp : t.ps = s.ps) : psLen t sl = psLen s sl := by
  simp [psLen, hc, memReadUnit_congr hc hp]

theorem psIvl_congr {s t : State} {sl : SlotRef} {i : Nat} (hc : t.cfg = s.cfg) (hp : t.ps = s.ps) :
    psIvl t sl i = psIvl s sl i := by
  simp [psIvl, hc, memReadUnit_congr hc hp]

theorem slotOk_congr {s t : State} {sl : SlotRef} (hc : t.cfg = s.cfg) (hp : t.ps = s.ps) :
    slotOk t sl = slotOk s sl := by
  simp [slotOk, hc, psLen_congr hc hp, psIvl_congr hc hp]

/-- What the launch premise on a slot says of its reads (R47, R52). -/
theorem slotOk_iff {s : State} {sl : SlotRef} :
    slotOk s sl = true ↔
      ∃ n, psLen s sl = .ok n ∧ n.toNat ≤ s.cfg.cap ∧ ∀ i, i < n.toNat → ∃ v, psIvl s sl i = .ok v := by
  unfold slotOk
  cases h : psLen s sl with
  | error e => simp
  | ok n =>
    simp only [Bool.and_eq_true, decide_eq_true_eq, List.all_eq_true, List.mem_range, Except.ok.injEq,
      exists_eq_left']
    refine and_congr_right fun _ => forall_congr' fun i => forall_congr' fun _ => ?_
    cases psIvl s sl i <;> simp

/-! ### The working buffer -/

theorem bufferPrefix_length (r : List (Option Word)) (n q : Nat) : (bufferPrefix r n q).length = n := by
  induction n generalizing r q with
  | zero => cases r <;> rfl
  | succ n ih => rcases r with _ | ⟨_ | v, r⟩ <;> simp [bufferPrefix, ih]

/-- Registers that all hold a value are read as they are, and no fault is reported. -/
theorem buffer_of_take {r : List (Option Word)} {n : Nat} {vs : List Word} (q i : Nat) (hl : vs.length = n)
    (h : r.take n = vs.map some) : bufferPrefix r n q = vs ∧ bufferFaults r n i = [] := by
  induction n generalizing r vs i with
  | zero =>
    cases vs with
    | nil => cases r <;> exact ⟨rfl, rfl⟩
    | cons v vs => cases hl
  | succ n ih =>
    cases vs with
    | nil => cases hl
    | cons v vs =>
      cases r with
      | nil => cases h
      | cons x r =>
        simp only [List.take_succ_cons, List.map_cons, List.cons.injEq] at h
        obtain ⟨rfl, h⟩ := h
        have := ih (i + 1) (by simpa using hl) h
        simp [bufferPrefix, bufferFaults, this.1, this.2]

/-- The first register below the count that holds no value is reported and read as the next free value, as if it held it. -/
theorem buffer_set {r : List (Option Word)} {n j : Nat} (q i : Nat) (hj : j < n) (hr : r[j]? = some none)
    (hl : ∀ l, l < j → ∃ v, r[l]? = some (some v)) :
    bufferPrefix r n q = bufferPrefix (r.set j (some (freeWord q))) n (q + 1) ∧
      bufferFaults r n i = .rbuf (i + j) :: bufferFaults (r.set j (some (freeWord q))) n i := by
  induction n generalizing r j i with
  | zero => omega
  | succ n ih =>
    match r, j with
    | [], _ => simp at hr
    | none :: r, 0 => simp [bufferPrefix, bufferFaults]
    | some v :: r, 0 => simp at hr
    | none :: r, j + 1 => have := hl 0 (by omega); simp at this
    | some v :: r, j + 1 =>
      have := ih (r := r) (j := j) (i + 1) (by omega) (by simpa using hr) fun l h => by
        simpa using hl (l + 1) (by omega)
      simp [bufferPrefix, bufferFaults, ← this.1, this.2]
      omega

theorem readBuffer_of_take {s : State} {n : Nat} {vs : List Word} {f : List Word → State → Result} (hl : vs.length = n)
    (h : s.rbuf.take n = vs.map some) : readBuffer n s f = f vs s := by
  rw [readBuffer, (buffer_of_take s.fresh 0 hl h).1, (buffer_of_take s.fresh 0 hl h).2, reportFaults_nil]

/-! ### Capture completion -/

/-- CDONE writes the slot once and returns the engine to `Idle` (R106). -/
theorem cdone_ends {s : State} {sl : SlotRef} {n : Word} {vs : List Word} (h : Holds s sl n vs) :
    CaptureEnds s sl n vs (cdone s) := by
  have hr := inStore_iff.mp h.room
  have hn := h.count
  refine ⟨(s.ps.writeRun s.cfg (psAddr s.cfg sl + 1) vs).writeRun s.cfg (psAddr s.cfg sl) [n], fun a => ?_, ?_⟩
  · rw [Memory.read_writeRun, Memory.read_writeRun]
    simp only [List.length_singleton]
    rcases Nat.lt_trichotomy a (psAddr s.cfg sl) with hlt | rfl | hgt
    · rw [if_neg (by omega), if_neg (by omega), if_neg (by omega), if_neg (by omega)]
    · rw [if_pos (by omega), if_pos rfl]
      simp
    · rw [if_neg (by omega), if_neg (by omega : ¬ a = psAddr s.cfg sl)]
      by_cases hle : a ≤ psAddr s.cfg sl + vs.length
      · rw [if_pos (by omega), if_pos (by omega), Nat.sub_add_eq]
      · rw [if_neg (by omega), if_neg (by omega)]
  · have hb : ∀ f, readBuffer n.toNat s f = f vs s := fun f => readBuffer_of_take hn h.buffer
    have h1 : memWrite (unlock s) (psAddr s.cfg sl + 1) vs =
        .next { unlock s with ps := s.ps.writeRun s.cfg (psAddr s.cfg sl + 1) vs } :=
      memWrite_of_room rfl (inStore_iff.mpr ⟨by simp; omega, by simp; omega⟩)
    have h2 : ∀ m, memWrite { unlock s with ps := m } (psAddr s.cfg sl) [n] =
        .next { unlock s with ps := m.writeRun s.cfg (psAddr s.cfg sl) [n] } := fun m =>
      memWrite_of_room rfl (inStore_iff.mpr ⟨by simp; omega, by simp; omega⟩)
    simp only [cdone, readSlot_some h.slot, readEcnt_some h.ecnt, hb, h1, andThen_next, h2]
    rfl

/-- Everything CDONE can answer as a next state: it wrote some slot with as many intervals as it wrote as the length, the slot
and the length held where `SLOT` and `ECNT` hold a value, and reported what held none. -/
theorem cdone_next {s t : State} (h : cdone s = .next t) :
    ∃ sl n vs fs, (∀ x, s.slot = some x → sl = x) ∧ (∀ x, s.ecnt = some x → n = x) ∧ vs.length = n.toNat ∧
      t = captureIdle (lock { reportFaults fs s with
        ps := (s.ps.writeRun s.cfg (psAddr s.cfg sl + 1) vs).writeRun s.cfg (psAddr s.cfg sl) [n] }) := by
  unfold cdone at h
  obtain ⟨sl, fs, e, hs⟩ := readSlot_cases (s := s)
  rw [e] at h
  obtain ⟨n, fs', e, hn⟩ := readEcnt_cases (s := { reportFaults fs s with slot := some sl })
  rw [e] at h
  obtain ⟨u, hu, h⟩ := andThen_eq_next h
  obtain ⟨-, -, rfl⟩ := memWrite_next hu
  obtain ⟨w, hw, h⟩ := andThen_eq_next h
  obtain ⟨-, -, rfl⟩ := memWrite_next hw
  cases h
  refine ⟨sl, n, _, fs ++ fs' ++ bufferFaults s.rbuf n.toNat 0, fun x hx => ?_, fun x hx => ?_,
    bufferPrefix_length s.rbuf _ (s.fresh + fs.length + fs'.length), ?_⟩
  · rcases hs with ⟨hs, -⟩ | ⟨hs, -⟩ <;> cases hx.symm.trans hs
    rfl
  · rcases hn with ⟨hn, -⟩ | ⟨hn, -⟩ <;> cases hx.symm.trans hn
    rfl
  · simp [reportFaults, captureIdle, lock, unlock, Nat.add_assoc]

/-- CDONE with no value in `SLOT`, in `ECNT`: it reports the fault and does what it does with the next free value there. -/
theorem cdone_slot_none {s : State} (h : s.slot = none) :
    cdone s = cdone { reportFaults [.slot] s with slot := some (freeSlot s.cfg s.fresh) } := by
  simp only [cdone, readSlot, readElement, h]
  rfl

theorem cdone_ecnt_none {s : State} {sl : SlotRef} (hs : s.slot = some sl) (h : s.ecnt = none) :
    cdone s = cdone { reportFaults [.ecnt] s with ecnt := some (freeCount s.cfg s.fresh) } := by
  simp only [cdone, readSlot, readEcnt, readElement, hs, h, reportFaults_slot]
  rfl

/-- PSTART reads interval 0 and starts the playback (R121). -/
theorem pstart_next {s t : State} {sl : SlotRef} (h : pstart sl s = .next t) :
    ∃ v, psIvl s sl 0 = .ok v ∧ t = playFrom sl v s := by
  obtain ⟨v, hv, h⟩ := withRead_eq_next h
  cases h
  exact ⟨v, hv, rfl⟩

end Sys2Proof.Machine
end

