-- ==== Sys2Proof/Laws/PerInstr.lean ====
section
/-! SUPPORT. A statement made per instruction: the encoder's word of an event lies in the event's row of the opcode map (spec
30_encoding R83): the masked word is the row's match, the field `zero` is 0 and `imm16` is the operand. -/

namespace Sys2Proof.Laws

/-- The encoder's word lies in the event's row of R83. -/
abbrev RowOfWord.Statement (i : Instr) : Prop :=
  encode i &&& rowMask i = rowMatch i ∧ opField (encode i) = opcodeOf i ∧ zeroField (encode i) = 0 ∧
    immField (encode i) = operandOf i

/-- The bits of `{op, 0x00, imm16}`. -/
theorem getLsbD_eventWord (op : BitVec 8) (imm : Word) (j : Nat) :
    (eventWord op imm).getLsbD j =
      if j < 16 then imm.getLsbD j else if j < 24 then false else op.getLsbD (j - 24) := by
  have h1 : (eventWord op imm).getLsbD j = if j < 16 then imm.getLsbD j else (op ++ 0#8).getLsbD (j - 16) :=
    BitVec.getLsbD_append
  have h2 : (op ++ 0#8).getLsbD (j - 16) = if j - 16 < 8 then (0#8).getLsbD (j - 16) else op.getLsbD (j - 16 - 8) :=
    BitVec.getLsbD_append
  rw [h1, h2]
  by_cases h : j < 16
  · simp [h]
  · by_cases h24 : j < 24
    · simp [h, h24, show j - 16 < 8 by omega]
    · simp [h, h24, show ¬ j - 16 < 8 by omega, Nat.sub_sub]

theorem opField_eventWord (op : BitVec 8) (imm : Word) : opField (eventWord op imm) = op := by
  apply BitVec.eq_of_getLsbD_eq
  intro j hj
  simp [opField, getLsbD_eventWord, hj, show ¬ 24 + j < 16 by omega]

theorem zeroField_eventWord (op : BitVec 8) (imm : Word) : zeroField (eventWord op imm) = 0 := by
  apply BitVec.eq_of_getLsbD_eq
  intro j hj
  simp [zeroField, getLsbD_eventWord, hj, show 16 + j < 24 by omega]

theorem immField_eventWord (op : BitVec 8) (imm : Word) : immField (eventWord op imm) = imm := by
  apply BitVec.eq_of_getLsbD_eq
  intro j hj
  simp [immField, getLsbD_eventWord, hj]

/-- Masking off `imm16` leaves the row's fixed bits. -/
theorem eventWord_mask (op : BitVec 8) (imm : Word) : eventWord op imm &&& 0xFFFF0000#32 = eventWord op 0 := by
  apply BitVec.eq_of_getLsbD_eq
  intro j hj
  have hm : ∀ j < 32, (0xFFFF0000#32).getLsbD j = decide (16 ≤ j) := by decide
  rw [BitVec.getLsbD_and, getLsbD_eventWord, getLsbD_eventWord, hm j hj]
  by_cases h : j < 16
  · simp [h]
  · simp [h, show 16 ≤ j by omega]

theorem RowOfWord.por : RowOfWord.Statement .por := by decide
theorem RowOfWord.env : RowOfWord.Statement .env := by decide
theorem RowOfWord.copy : RowOfWord.Statement .copy := by decide
theorem RowOfWord.ok : RowOfWord.Statement .ok := by decide
theorem RowOfWord.mode : RowOfWord.Statement .mode := by decide
theorem RowOfWord.settle : RowOfWord.Statement .settle := by decide
theorem RowOfWord.tmo : RowOfWord.Statement .tmo := by decide
theorem RowOfWord.sleep : RowOfWord.Statement .sleep := by decide

theorem RowOfWord.edge (cnt : Word) : RowOfWord.Statement (.edge cnt) :=
  ⟨(eventWord_mask _ _).trans (by simp only [opcodeOf, rowMatch]; decide), opField_eventWord _ _, zeroField_eventWord _ _, immField_eventWord _ _⟩

theorem RowOfWord.key (k : Word) : RowOfWord.Statement (.key k) :=
  ⟨(eventWord_mask _ _).trans (by simp only [opcodeOf, rowMatch]; decide), opField_eventWord _ _, zeroField_eventWord _ _, immField_eventWord _ _⟩

end Sys2Proof.Laws
end

