-- ==== Sys2Proof/Certificates/Slice0/Obligations.lean ====
section
/-! DEFINITION. The statements for the provers, from the numbered rules of the spec. -/

open Sys2Proof Sys2Proof.Machine

/-! ### Encoding -/

/-- Words of 95_test_vectors section 2.1 decode, in the default instance, as written there (the encoding is the spec's own
decision D1). -/
def Obligations.VectorWordsDecodeAsListed : Prop :=
  decode Config.default 0x01000000 = .ok .por ∧
  decode Config.default 0x0200000A = .ok (.edge 10) ∧
  decode Config.default 0x0200FFFF = .ok (.edge 65535) ∧
  decode Config.default 0x03000000 = .ok .env ∧
  decode Config.default 0x0400000F = .ok (.key 15) ∧
  decode Config.default 0x05000000 = .ok .copy ∧
  decode Config.default 0x06000000 = .ok .ok ∧
  decode Config.default 0x07000000 = .ok .mode ∧
  decode Config.default 0x08000000 = .ok .settle ∧
  decode Config.default 0x09000000 = .ok .tmo ∧
  decode Config.default 0x0A000000 = .ok .sleep ∧
  decode Config.default 0x0B000000 = .error .reservedOpcode ∧
  decode Config.default 0x02FF000A = .error .nonzeroReservedBits ∧
  decode Config.default 0x03000001 = .error .nonzeroOperand ∧
  decode Config.default 0x04000010 = .error .keyOutOfRange

/-- Decoding the encoder's word of a well-formed event gives that event, for every operand value (R80, R81, R83;
the encoding is the spec's own decision D1). -/
def Obligations.DecodeOfEncodeIsTheEvent : Prop :=
  ∀ (c : Config) (i : Instr), WellFormed c i → decode c (encode i) = .ok i

/-- A decoded event is well-formed and the encoder gives its word back, so each event has one word (R80, R83,
D1). -/
def Obligations.EncodeOfDecodeIsTheWord : Prop :=
  ∀ (c : Config) (w : EventWord) (i : Instr), decode c w = .ok i → WellFormed c i ∧ encode i = w

/-- A word is the event exactly where its masked bits are the row's match, its low bits are the operand, and the operand
constraint holds (R83, the spec's own decision D1). -/
def Obligations.WordIsEventIffRowMatches : Prop :=
  ∀ (c : Config) (w : EventWord) (i : Instr),
    decode c w = .ok i ↔ w &&& rowMask i = rowMatch i ∧ immField w = operandOf i ∧ WellFormed c i

/-- A word is refused exactly where it has one of the four defects, under the name of one it has, and it has no step (R88,
the spec's own decision D23; which name where it has several is the model's choice, log entry 7). -/
def Obligations.MalformedWordHasNoStep : Prop :=
  (∀ c w r, decode c w = .error r → Defect c w r) ∧
  (∀ c w r, Defect c w r → ∃ r', decode c w = .error r') ∧
  (∀ (s : State) w rest r, s.stream = w :: rest → decode s.cfg w = .error r → step s = .refused (.malformed r))

/-- A step takes the next word of the stream and is `exec` of the event it decodes to, in the state with the rest
of the stream (R43, R171, the spec's own decisions D2, D16; the stream as a field of the state is log entry 1). -/
def Obligations.StepRunsTheDecodedEvent : Prop :=
  ∀ (s : State) (w : EventWord) (rest : List EventWord) (i : Instr),
    s.stream = w :: rest → decode s.cfg w = .ok i → step s = exec i { s with stream := rest }

/-- An event delivered as the next word runs exactly as itself, and a stream with no word left gives no step; the second is
the model's choice (log entry 1). -/
def Obligations.DeliveredEventRunsNext : Prop :=
  (∀ (s : State) (i : Instr), WellFormed s.cfg i → step (s.withFetchWord 32 (encode i).toNat) = exec i s) ∧
  (∀ s : State, s.stream = [] → step s = .refused .streamEnd)

/-- Assembling the disassembler's line of a well-formed event gives the event's word (R86, the spec's own decision D1). -/
def Obligations.AssembledDisassemblyIsTheWord : Prop :=
  ∀ (c : Config) (i : Instr), WellFormed c i → assembleLine c (disassemble i) = .ok [encode i]

/-- `EDGES` delivers one `EDGE` per delta, at the running sum of the deltas modulo 65536; `PRESS` is the press and `SETTLE`
(R85, R87, the spec's own decision D1). -/
def Obligations.PseudoEventsExpand : Prop :=
  (∀ ds : List Word, (pseudoEdges ds).length = ds.length) ∧
  (∀ (ds : List Word) (j : Nat), j < ds.length →
    (pseudoEdges ds)[j]? = some (.edge ((ds.take (j + 1)).foldl (fun c d => c + d) 0))) ∧
  (∀ b : Instr, pseudoPress b = [b, .settle])

/-! ### The Pulse Store -/

/-- The slot address formula, each record ends inside its stride and inside the store, and two slots' records do not meet
(R63, R73; the numbering of the slots is the spec's own decision D8). -/
def Obligations.SlotRecordsNeverOverlap : Prop :=
  ∀ (c : Config), c.Ok → ∀ sl : SlotRef, sl.m < c.nmodes → sl.k < c.nkeys →
    psAddr c sl = c.psBase + (sl.m * c.nkeys + sl.k) * c.psStride ∧
    psAddr c sl + c.cap ≤ psAddr c sl + c.psStride - 1 ∧
    psAddr c sl + c.psStride ≤ c.storeEnd ∧
    ∀ sl' : SlotRef, sl'.m < c.nmodes → sl'.k < c.nkeys → sl ≠ sl' →
      psAddr c sl + c.cap < psAddr c sl' ∨ psAddr c sl' + c.cap < psAddr c sl

/-- After a `MemWrite` of a run, `MemRead` returns the run, every other unit reads as before, and the store keeps its
canonical form (R13, R74; the canonical form is log entry 5). -/
def Obligations.StoreReadsBackTheRun : Prop :=
  ∀ (s t : State) (a : Nat) (vs : List Word), memWrite s a vs = .next t →
    memRead t a vs.length = .ok vs ∧
    (∀ b, ¬(a ≤ b ∧ b < a + vs.length) → t.ps.read t.cfg b = s.ps.read s.cfg b) ∧
    (s.ps.wf s.cfg = true → t.ps.wf t.cfg = true)

/-- A write while locked is refused; a write inside the store while unlocked is done (R66, the spec's own decision D19). -/
def Obligations.LockedStoreRefusesWrites : Prop :=
  ∀ (s : State) (a : Nat) (vs : List Word),
    (s.nvmwp = true → memWrite s a vs = .refused .storeLocked) ∧
    (s.nvmwp = false → inStore s.cfg a vs.length = true →
      memWrite s a vs = .next { s with ps := s.ps.writeRun s.cfg a vs })

/-- `read` answers nothing for a length of 0, and otherwise the list of the slot's intervals (R64). -/
def Obligations.SlotReadReturnsItsIntervals : Prop :=
  ∀ (s : State) (sl : SlotRef),
    (psLen s sl = .ok 0 → psRead s sl = .ok none) ∧
    ∀ (n : Word) (vs : List Word), psLen s sl = .ok n → n ≠ 0 → vs.length = n.toNat →
      (∀ i (h : i < vs.length), psIvl s sl i = .ok vs[i]) → psRead s sl = .ok (some vs)

/-! ### System events -/

/-- Power-on reset leaves the table of R46 from every state, and keeps the store (R161; the values the source does not give
are the spec's own decision D15; a register that holds no value is `none`, log entry 3). -/
def Obligations.PorLeavesTheResetTable : Prop :=
  ∀ s : State, exec .por s = .next
    { cfg := s.cfg, stream := s.stream, fresh := s.fresh, readFaults := s.readFaults,
      mode := s.cfg.modeDefault, copy := false, arb := .idle,
      eng := .idle, owner := .nobody, caparm := false, carr := false, enven := false, outen := false,
      latch := .ready, btnie := true, wake := false, nvmwp := true,
      slot := none, ecnt := none, cur := none, oldc := none, rbuf := List.replicate s.cfg.cap none,
      envp := none, disp := none,
      ps := s.ps }

/-- The state after the first power-up, in the default instance (log entry 2): a power-on reset changes nothing, and every
slot reads "no code" (R46, R47). -/
def Obligations.ResetStateHasNoCode : Prop :=
  exec .por State.reset = .next State.reset ∧
  ∀ m k, m < State.reset.cfg.nmodes → k < State.reset.cfg.nkeys → psRead State.reset ⟨m, k⟩ = .ok none

/-- `SLEEP` clears `WAKE` and takes `ModeDisplay` to `Idle`; a parked main flow changes nothing (R160, the spec's own
decision D11). -/
def Obligations.SleepParksTheMainFlow : Prop :=
  ∀ s : State,
    (s.wake = false → exec .sleep s = .next s) ∧
    (s.wake = true → exec .sleep s = .next
      { s with wake := false, arb := if s.arb = .modeDisplay then .idle else s.arb })

/-- `SETTLE` releases the latch in every state and changes nothing else (R137; where the latch is `Ready` it is the spec's own
decision D17). -/
def Obligations.SettleReleasesTheLatch : Prop :=
  ∀ s : State, exec .settle s = .next { s with latch := .ready }

/-! ### The arbiter -/

/-- An event whose gate (R172) is closed changes no state (R173, the spec's own decision D13). -/
def Obligations.ClosedGateDropsTheEvent : Prop :=
  ∀ (s : State) (i : Instr), WellFormed s.cfg i → gateOpen s i = false → exec i s = .next s

/-- An accepted mode press advances the mode modulo `NMODES`, shows it and wakes the main flow; in `Recording` it sets the
latch alone; otherwise it is dropped (R144, R145; the wake is the spec's own decision D11, the recording's case D12). -/
def Obligations.ModePressAdvancesTheMode : Prop :=
  ∀ s : State,
    (s.btnie = false ∨ s.latch = .pressed → exec .mode s = .next s) ∧
    (s.btnie = true → s.latch = .ready → s.arb = .idle ∨ s.arb = .modeDisplay →
      exec .mode s = .next
        { s with
          latch := .pressed, mode := (s.mode + 1) % s.cfg.nmodes, arb := .modeDisplay,
          disp := some (.modeName ((s.mode + 1) % s.cfg.nmodes)), wake := true }) ∧
    (s.btnie = true → s.latch = .ready → s.arb = .recording → exec .mode s = .next { s with latch := .pressed })

/-- An accepted copy press toggles the flag and shows it; in `Recording` it cancels the recording (R141, R143; the display on
leaving copy mode is the spec's own decision D14). -/
def Obligations.CopyPressTogglesOrCancels : Prop :=
  ∀ s : State,
    (s.btnie = false ∨ s.latch = .pressed → exec .copy s = .next s) ∧
    (s.btnie = true → s.latch = .ready → s.arb = .idle ∨ s.arb = .modeDisplay →
      exec .copy s = .next
        { s with
          latch := .pressed, copy := !s.copy,
          disp := some (if s.copy then .modeName s.mode else .copyMode) }) ∧
    (s.btnie = true → s.latch = .ready → s.arb = .recording → ∀ sl n vs, Holds s sl n vs →
      CaptureEnds { s with latch := .pressed } sl n vs (exec .copy s))

/-- An accepted ok press leaves copy mode and is else a no-op of the arbiter; in `Recording` it cancels the recording (R142,
R143; the display on leaving copy mode is the spec's own decision D14). -/
def Obligations.OkPressLeavesCopyModeOrCancels : Prop :=
  ∀ s : State,
    (s.btnie = false ∨ s.latch = .pressed → exec .ok s = .next s) ∧
    (s.btnie = true → s.latch = .ready → s.arb = .idle ∨ s.arb = .modeDisplay →
      (s.copy = true → exec .ok s = .next
        { s with latch := .pressed, copy := false, disp := some (.modeName s.mode) }) ∧
      (s.copy = false → exec .ok s = .next { s with latch := .pressed })) ∧
    (s.btnie = true → s.latch = .ready → s.arb = .recording → ∀ sl n vs, Holds s sl n vs →
      CaptureEnds { s with latch := .pressed } sl n vs (exec .ok s))

/-- An accepted key press starts a capture in copy mode, else a playback of a slot that holds a code, else shows "no code";
in `Recording` it sets the latch alone (R140, R101, R121, R127; the spec's own decisions D3, D4, D10, D12 give the capture's
start, `OUTEN` and the recording's case). -/
def Obligations.KeyPressStartsAnEngine : Prop :=
  ∀ (s : State) (k : Word), k.toNat < s.cfg.nkeys →
    (s.btnie = false ∨ s.latch = .pressed → exec (.key k) s = .next s) ∧
    (s.btnie = true → s.latch = .ready → s.arb = .idle ∨ s.arb = .modeDisplay →
      (s.copy = true → exec (.key k) s = .next
        { s with
          latch := .pressed, slot := some ⟨s.mode, k.toNat⟩, ecnt := some 0, oldc := some 0,
          owner := .capture, caparm := true, eng := .recording, arb := .recording }) ∧
      (s.copy = false → ∀ n v, psLen s ⟨s.mode, k.toNat⟩ = .ok n → 0 < n.toNat →
        psIvl s ⟨s.mode, k.toNat⟩ 0 = .ok v → exec (.key k) s = .next
          { s with
            latch := .pressed, slot := some ⟨s.mode, k.toNat⟩, envp := some v, cur := some 1,
            outen := s.cfg.envInit, owner := .playback, carr := true, enven := true, btnie := false,
            eng := .playing, arb := .playing }) ∧
      (s.copy = false → psLen s ⟨s.mode, k.toNat⟩ = .ok 0 → exec (.key k) s = .next
        { s with latch := .pressed, disp := some .noCode })) ∧
    (s.btnie = true → s.latch = .ready → s.arb = .recording →
      exec (.key k) s = .next { s with latch := .pressed })

/-- An accepted keypad or mode press during a recording sets the latch and does nothing else (R145, the spec's own decision
D12). -/
def Obligations.RecordingIgnoresKeypadAndMode : Prop :=
  ∀ (s : State) (i : Instr), i = .mode ∨ (∃ k : Word, k.toNat < s.cfg.nkeys ∧ i = .key k) →
    s.btnie = true → s.latch = .ready → s.arb = .recording → exec i s = .next { s with latch := .pressed }

/-- For every button event `ModeDisplay` behaves as `Idle`, but that a step that stays there stays in `ModeDisplay`; `SLEEP`
leaves it (R146, the spec's own decision D11). -/
def Obligations.ModeDisplayActsAsIdle : Prop :=
  ∀ s : State, s.arb = .modeDisplay →
    (∀ i : Instr, i.isButton = true → exec i s = keepModeDisplay (exec i { s with arb := .idle })) ∧
    (s.wake = true → exec .sleep s = .next { s with wake := false, arb := .idle })

/-- R138: an accepted press sets the latch, and from there until `SETTLE` or `POR` no button event of a run changes
anything, whichever line it comes on. -/
def Obligations.DebounceAcceptsOnePress : Prop :=
  (∀ (s t : State) (i : Instr), i.isButton = true → buttonGate s = true → exec i s = .next t → t.latch = .pressed) ∧
  ∀ (s : State) (is : List Instr), s.latch = .pressed →
    (∀ i ∈ is, i ≠ .settle ∧ i ≠ .por ∧ WellFormed s.cfg i) →
    runEvents is s = runEvents (is.filter fun i => !i.isButton) s ∧
    ∀ t, runEvents is s = .next t → t.latch = .pressed

/-! ### Capture -/

/-- `EDGE` is dropped while not armed; else the delta is appended below capacity, `OLDC` follows the count, and a recording at
capacity completes (R103, R102; the guard on the increment, for a count at or above capacity, is the spec's own decision D5). -/
def Obligations.EdgeFollowsTheCaptureRule : Prop :=
  ∀ (s : State) (cnt : Word),
    (s.caparm = false → exec (.edge cnt) s = .next s) ∧
    ∀ (old n : Word), s.caparm = true → s.oldc = some old → s.ecnt = some n →
      (n.toNat < s.cfg.cap → (n + 1).toNat ≠ s.cfg.cap → exec (.edge cnt) s = .next
        { s with rbuf := s.rbuf.set n.toNat (some (cnt - old)), ecnt := some (n + 1), oldc := some cnt }) ∧
      (n.toNat < s.cfg.cap → (n + 1).toNat = s.cfg.cap → n.toNat < s.rbuf.length → ∀ sl vs,
        s.slot = some sl → vs.length = n.toNat → s.rbuf.take n.toNat = vs.map some →
        inStore s.cfg (psAddr s.cfg sl) (s.cfg.cap + 1) = true →
        CaptureEnds
          { s with rbuf := s.rbuf.set n.toNat (some (cnt - old)), ecnt := some (n + 1), oldc := some cnt }
          sl (n + 1) (vs ++ [cnt - old]) (exec (.edge cnt) s)) ∧
      (n.toNat = s.cfg.cap → ∀ sl vs, Holds s sl n vs →
        CaptureEnds { s with oldc := some cnt } sl n vs (exec (.edge cnt) s)) ∧
      (s.cfg.cap < n.toNat → exec (.edge cnt) s = .next { s with oldc := some cnt })

/-- `TMO` completes a recording, and changes nothing outside one (R104, R106, the spec's own decision D6). -/
def Obligations.TmoStopsTheRecording : Prop :=
  ∀ s : State,
    (s.eng ≠ .recording → exec .tmo s = .next s) ∧
    (s.eng = .recording → ∀ sl n vs, Holds s sl n vs → CaptureEnds s sl n vs (exec .tmo s))

/-- From any idle state in copy mode, a key press, edges with the deltas `ds` (at most `CAP`) and a stop (none where the edges
fill the slot) leave the slot with exactly those intervals (R109, R106; the stop `TMO` is the spec's own decision D6, R104).
Every unit outside the written ones reads as before (R67, the spec's own decision D9). -/
def Obligations.RecordingRoundTrip : Prop :=
  ∀ (s : State) (k : Word) (ds : List Word) (stop : List Instr),
    Invariant s → s.eng = .idle → s.latch = .ready → s.copy = true → k.toNat < s.cfg.nkeys → ds.length ≤ s.cfg.cap →
    stop ∈ [[Instr.tmo], [.settle, .ok], [.settle, .copy]] ∨ (stop = [] ∧ ds.length = s.cfg.cap) →
    ∃ t, runEvents (.key k :: (pseudoEdges ds ++ stop)) s = .next t ∧ t.eng = .idle ∧
      psLen t ⟨s.mode, k.toNat⟩ = .ok (BitVec.ofNat 16 ds.length) ∧
      (∀ i (h : i < ds.length), psIvl t ⟨s.mode, k.toNat⟩ i = .ok ds[i]) ∧
      ∀ a, ¬(psAddr s.cfg ⟨s.mode, k.toNat⟩ ≤ a ∧ a ≤ psAddr s.cfg ⟨s.mode, k.toNat⟩ + ds.length) →
        t.ps.read t.cfg a = s.ps.read s.cfg a

/-- R110: of more than `CAP` edges with no other stop the first `CAP` are recorded, the `CAP`-th completes the recording, and
those after it change nothing; no unit outside the slot's record changes. -/
def Obligations.RecordingTruncatesAtCapacity : Prop :=
  ∀ (s : State) (k : Word) (ds : List Word),
    Invariant s → s.eng = .idle → s.latch = .ready → s.copy = true → k.toNat < s.cfg.nkeys → s.cfg.cap < ds.length →
    ∃ t, runEvents (.key k :: pseudoEdges (ds.take s.cfg.cap)) s = .next t ∧
      runEvents (.key k :: pseudoEdges ds) s = .next t ∧ t.eng = .idle ∧
      psLen t ⟨s.mode, k.toNat⟩ = .ok (BitVec.ofNat 16 s.cfg.cap) ∧
      (∀ i (h : i < ds.length), i < s.cfg.cap → psIvl t ⟨s.mode, k.toNat⟩ i = .ok ds[i]) ∧
      ∀ a, ¬(psAddr s.cfg ⟨s.mode, k.toNat⟩ ≤ a ∧ a ≤ psAddr s.cfg ⟨s.mode, k.toNat⟩ + s.cfg.cap) →
        t.ps.read t.cfg a = s.ps.read s.cfg a

/-! ### Playback -/

/-- `ENV` is dropped while the envelope channel is off; below the slot's length it toggles the enable line and loads the next
period; else it completes the playback (R123, R125; that `OUTEN` then keeps its polarity is the spec's own decision D10). -/
def Obligations.EnvWalksTheSlot : Prop :=
  ∀ s : State,
    (s.enven = false → exec .env s = .next s) ∧
    ∀ sl n i, s.enven = true → s.slot = some sl → psLen s sl = .ok n → s.cur = some i →
      (i.toNat < n.toNat → ∀ v, psIvl s sl i.toNat = .ok v → exec .env s = .next
        { s with outen := !s.outen, envp := some v, cur := some (i + 1) }) ∧
      (¬ i.toNat < n.toNat → exec .env s = .next
        { s with
          carr := false, enven := false, owner := .nobody, eng := .idle, arb := .idle, btnie := true,
          disp := some (.modeName s.mode), wake := true,
          slot := none, cur := none, envp := none })

/-- R124: a playback of a slot with intervals `vs` loads them once each in order, with the enable line at `ENV_INIT` XOR the
period's parity, and the event after the last period returns the engine to `Idle` with the carrier off. -/
def Obligations.PlaybackReplaysTheSlot : Prop :=
  ∀ (s : State) (k : Word) (vs : List Word),
    Invariant s → s.eng = .idle → s.latch = .ready → s.copy = false → k.toNat < s.cfg.nkeys →
    psRead s ⟨s.mode, k.toNat⟩ = .ok (some vs) →
    (∀ j (h : j < vs.length), ∃ t, runEvents (.key k :: List.replicate j .env) s = .next t ∧
      t.eng = .playing ∧ t.carr = true ∧ t.envp = some vs[j] ∧
      t.outen = Bool.xor s.cfg.envInit (decide (j % 2 = 1))) ∧
    ∃ t, runEvents (.key k :: List.replicate vs.length .env) s = .next t ∧
      t.eng = .idle ∧ t.carr = false ∧ t.disp = some (.modeName s.mode) ∧ t.ps = s.ps

/-- R204, with R122: during a playback every button event changes nothing, and only `ENV` and `POR` can end it. -/
def Obligations.PlaybackIgnoresButtons : Prop :=
  ∀ s : State, Invariant s → s.eng = .playing →
    (∀ i : Instr, i.isButton = true → WellFormed s.cfg i → exec i s = .next s) ∧
    ∀ (i : Instr) (t : State), exec i s = .next t → t.eng = .playing ∨ i = .env ∨ i = .por

/-- During a playback only `ENV` moves it on, one period at a time, and ends it at the stored length; every other event but
`POR` touches the latch and the wake flag alone, and the store never changes (95_test_vectors Part 4, last item). -/
def Obligations.PlaybackAdvancesOnlyByEnv : Prop :=
  ∀ (s t : State) (i : Instr), Invariant s → s.eng = .playing → i ≠ .por → exec i s = .next t →
    t.ps = s.ps ∧
    (i ≠ .env → t = { s with latch := t.latch, wake := t.wake }) ∧
    (i = .env → ∀ sl n c, s.slot = some sl → psLen s sl = .ok n → s.cur = some c →
      if c = n then t.eng = .idle else t.eng = .playing ∧ t.cur = some (c + 1))

/-! ### Invariants and whole-machine rules -/

/-- The state after reset meets the invariants. -/
def Obligations.ResetMeetsTheInvariants : Prop := Invariant State.reset

/-- Every step keeps the invariants of R48 to R57, the store's canonical form among them (95_test_vectors Part 4). -/
def Obligations.StepKeepsTheInvariants : Prop :=
  ∀ s t : State, Invariant s → step s = .next t → Invariant t

/-- R214, R56: from every state that meets the invariants every well-formed event has a successor state, and no rule reads an
element that holds no value: no fault is reported and no free value is taken. -/
def Obligations.EveryEventCompletes : Prop :=
  ∀ (s : State) (i : Instr), Invariant s → WellFormed s.cfg i →
    ∃ t, exec i s = .next t ∧ t.readFaults = s.readFaults ∧ t.fresh = s.fresh

/-- The engine's tag fixes the timer's owner, the channels, the arbiter's state and the button enable; both engines are never
active; the store is locked (R48, R49, R50, R54, R55). The mode display is awake and idle (R57, the spec's own decision D11). -/
def Obligations.EngineTagFixesTheChannels : Prop :=
  ∀ s : State, Invariant s →
    (s.eng = .idle ↔ s.owner = .nobody) ∧
    (s.eng = .idle → s.caparm = false ∧ s.enven = false ∧ s.carr = false) ∧
    (s.eng = .recording ↔ s.arb = .recording) ∧ (s.eng = .recording ↔ s.owner = .capture) ∧
    (s.eng = .recording ↔ s.caparm = true) ∧
    (s.eng = .playing ↔ s.arb = .playing) ∧ (s.eng = .playing ↔ s.owner = .playback) ∧
    (s.eng = .playing ↔ s.enven = true) ∧ (s.eng = .playing ↔ s.carr = true) ∧
    (s.eng = .idle ↔ s.arb = .idle ∨ s.arb = .modeDisplay) ∧
    ¬(s.caparm = true ∧ s.enven = true) ∧
    (s.btnie = false ↔ s.eng = .playing) ∧
    s.nvmwp = true ∧
    (s.arb = .modeDisplay → s.wake = true ∧ s.eng = .idle)

/-- R51, R52, R53: the edge count stays below capacity in copy mode, every slot's length is at most `CAP`, and during a
playback the cursor, the period and the enable line follow the slot. -/
def Obligations.RegistersFollowTheEngine : Prop :=
  ∀ s : State, Invariant s →
    (s.eng = .recording → s.copy = true ∧ ∃ n, s.ecnt = some n ∧ n.toNat < s.cfg.cap) ∧
    (∀ m k, m < s.cfg.nmodes → k < s.cfg.nkeys → ∃ n, psLen s ⟨m, k⟩ = .ok n ∧ n.toNat ≤ s.cfg.cap) ∧
    (s.eng = .playing → s.copy = false ∧ ∃ sl i n v, s.slot = some sl ∧ s.cur = some i ∧ psLen s sl = .ok n ∧
      1 ≤ n.toNat ∧ 1 ≤ i.toNat ∧ i.toNat ≤ n.toNat ∧ psIvl s sl (i.toNat - 1) = .ok v ∧ s.envp = some v ∧
      s.outen = Bool.xor s.cfg.envInit (decide ((i.toNat - 1) % 2 = 1)))

/-- R58: `MODE` and `COPY` change only in a step that also sets the latch, or in `POR`. -/
def Obligations.ModeAndCopyChangeUnderTheLatch : Prop :=
  ∀ (s t : State) (i : Instr), exec i s = .next t → t.mode ≠ s.mode ∨ t.copy ≠ s.copy →
    i = .por ∨ (s.latch = .ready ∧ t.latch = .pressed)

/-- The wake flag is set exactly by a completion or an accepted mode press outside a recording, and cleared exactly by `SLEEP`
and `POR` (R162; the mode press's wake is the spec's own decision D11). -/
def Obligations.WakeFlagFollowsItsRule : Prop :=
  ∀ (s t : State) (i : Instr), Invariant s → exec i s = .next t →
    (t.wake = true ↔
      (s.wake = true ∧ i ≠ .sleep ∧ i ≠ .por) ∨ Completes i s t ∨
      (i = .mode ∧ s.btnie = true ∧ s.latch = .ready ∧ s.eng = .idle))

/-- `ARB` goes where the column "to" of the transition table says, and nowhere else (R150; its rows of `ModeDisplay`, of a press
in `Recording` and of `TMO` are the spec's own decisions D11, D12, D6). -/
def Obligations.ArbiterFollowsTheTransitionTable : Prop :=
  ∀ (s t : State) (i : Instr), Invariant s → exec i s = .next t → t.arb = arbAfter s i

/-- The store changes only in an event that completes a recording, which POR is not, and then only in the units
`A .. A + length` of the slot recorded: no margin unit and no other slot's unit (R60, R67, T3; that the units beyond the new
length keep their value is the spec's own decision D9, log entry 9). -/
def Obligations.StoreChangesOnlyAtCompletion : Prop :=
  ∀ (s t : State) (i : Instr), Invariant s → exec i s = .next t →
    ∀ a, t.ps.read t.cfg a ≠ s.ps.read s.cfg a →
      Completes i s t ∧ s.eng = .recording ∧ ∃ sl n, s.slot = some sl ∧ psLen t sl = .ok n ∧
        psAddr s.cfg sl ≤ a ∧ a ≤ psAddr s.cfg sl + n.toNat

/-- No event changes the parameters or the events still to come (R43, R45, R78). -/
def Obligations.EventsKeepParametersAndStream : Prop :=
  ∀ (s t : State) (i : Instr), exec i s = .next t → t.cfg = s.cfg ∧ t.stream = s.stream

/-- A launch is a power-on state that meets the invariants; parameters and store content that meet the launch premises are
launched, a store never written among them; parameters out of bounds, or a slot whose length is above `CAP`, are refused
(R202, R216, R47, U14; what a launch takes is log entry 15). -/
def Obligations.LaunchMeetsTheInvariants : Prop :=
  ∀ (c : Config) (es : List EventWord) (ps : Memory),
    (∀ t, launch c es ps = .next t → t = powerOn c es ps ∧ Invariant t) ∧
    (c.Ok → storeOk (powerOn c es ps) = true → launch c es ps = .next (powerOn c es ps)) ∧
    (Invariant (powerOn c es ps) → launch c es ps = .next (powerOn c es ps)) ∧
    (c.Ok → launch c es [] = .next (powerOn c es [])) ∧
    (¬ c.Ok → launch c es ps = .refused .badLaunch) ∧
    (∀ m k n, m < c.nmodes → k < c.nkeys → psLen (powerOn c es ps) ⟨m, k⟩ = .ok n → c.cap < n.toNat →
      launch c es ps = .refused .badLaunch)

/-- `ENVP` and `DISP` are never read: changing them changes nothing else that any event does (R56). -/
def Obligations.OutputsAreNeverRead : Prop :=
  ∀ (s : State) (i : Instr) (v : Option Word) (d : Option DispReq),
    hideOutputs (exec i { s with envp := v, disp := d }) = hideOutputs (exec i s)

/-- R42: the output is active exactly while carrier and enable line are both 1, so never outside a playback. -/
def Obligations.OutputSilentOutsidePlayback : Prop :=
  ∀ s : State, (iroutActive s = true ↔ s.carr = true ∧ s.outen = true) ∧
    (Invariant s → s.eng ≠ .playing → iroutActive s = false)

/-- No event depends on the carrier's figures, the tick rate or the settle time: with other figures it does the same (R215). -/
def Obligations.PhysicalFiguresChangeNothing : Prop :=
  ∀ (s : State) (i : Instr) (hz duty : Nat) (tick settle : Option Nat),
    exec i (withPhysical hz duty tick settle s) =
      andThen (exec i s) fun t => .next (withPhysical hz duty tick settle t)

/-- A read of an element that holds no value is reported as a fault, and the event then does what it does in the state that
holds the next free value there, which lies within the bounds the spec puts on the element (R25, R26, R27). What the value is,
no claim can say (R46). R56 and U8 say such a read is a fault and no more: that the event goes on, with a free value, is the
model's choice (log entry 3). -/
def Obligations.NoValueReadsAreFree : Prop :=
  (∀ (s : State) (cnt : Word), s.caparm = true →
    (s.oldc = none → exec (.edge cnt) s =
      exec (.edge cnt) { reportFaults [.oldc] s with oldc := some (freeWord s.fresh) }) ∧
    (s.oldc ≠ none → s.ecnt = none → exec (.edge cnt) s =
      exec (.edge cnt) { reportFaults [.ecnt] s with ecnt := some (freeCount s.cfg s.fresh) }) ∧
    ∀ n : Word, s.oldc ≠ none → s.ecnt = some n →
      (n.toNat = s.cfg.cap ∨ n.toNat < s.cfg.cap ∧ (n + 1).toNat = s.cfg.cap) →
      (s.slot = none → exec (.edge cnt) s =
        exec (.edge cnt) { reportFaults [.slot] s with slot := some (freeSlot s.cfg s.fresh) }) ∧
      (s.slot ≠ none → ∀ j, j < n.toNat → s.rbuf[j]? = some none → (∀ l, l < j → ∃ v, s.rbuf[l]? = some (some v)) →
        exec (.edge cnt) s =
          exec (.edge cnt) { reportFaults [.rbuf j] s with rbuf := s.rbuf.set j (some (freeWord s.fresh)) })) ∧
  (∀ (s : State) (i : Instr),
    (i = .tmo ∧ s.eng = .recording) ∨ ((i = .copy ∨ i = .ok) ∧ buttonGate s = true ∧ inIdle s = false) →
    (s.slot = none → exec i s = exec i { reportFaults [.slot] s with slot := some (freeSlot s.cfg s.fresh) }) ∧
    (s.slot ≠ none → s.ecnt = none → exec i s =
      exec i { reportFaults [.ecnt] s with ecnt := some (freeCount s.cfg s.fresh) }) ∧
    (s.slot ≠ none → ∀ n j, s.ecnt = some n → j < n.toNat → s.rbuf[j]? = some none →
      (∀ l, l < j → ∃ v, s.rbuf[l]? = some (some v)) → exec i s =
        exec i { reportFaults [.rbuf j] s with rbuf := s.rbuf.set j (some (freeWord s.fresh)) })) ∧
  (∀ s : State, s.enven = true →
    (s.slot = none → exec .env s = exec .env { reportFaults [.slot] s with slot := some (freeSlot s.cfg s.fresh) }) ∧
    (∀ sl n, s.slot = some sl → psLen s sl = .ok n → s.cur = none → exec .env s =
      exec .env { reportFaults [.cur] s with cur := some (freeCursor n s.fresh) })) ∧
  (∀ (c : Config) (q : Nat), c.Ok →
    (freeSlot c q).m < c.nmodes ∧ (freeSlot c q).k < c.nkeys ∧ (freeCount c q).toNat ≤ c.cap) ∧
  ∀ (n : Word) (q : Nat), 1 ≤ n.toNat → 1 ≤ (freeCursor n q).toNat ∧ (freeCursor n q).toNat ≤ n.toNat

/-- Every well-formed event completes from every state, reached by a run or not, with parameters in their bounds, slots that
meet the launch premise, and `SLOT` and `ECNT` within their bounds where they hold a value: no event stops on an element
because it holds no value (R25, R26, R47, R62, R214; that it goes on is the model's choice, log entry 3). -/
def Obligations.EventsCompleteWithoutValues : Prop :=
  ∀ (s : State) (i : Instr), s.cfg.Ok → s.mode < s.cfg.nmodes →
    (∀ m k, m < s.cfg.nmodes → k < s.cfg.nkeys → slotOk s ⟨m, k⟩ = true) →
    (∀ sl, s.slot = some sl → sl.m < s.cfg.nmodes ∧ sl.k < s.cfg.nkeys) →
    (∀ n, s.ecnt = some n → n.toNat ≤ s.cfg.cap) →
    WellFormed s.cfg i → ∃ t, exec i s = .next t

/-- R56 over the whole machine: after reset no fault of a read stands reported, and from a state that meets the invariants no
step reports one. Whatever the state, an event keeps what was reported and takes as many free values as it adds to it (log
entry 3). -/
def Obligations.NoRunReadsAnElementWithoutValue : Prop :=
  State.reset.readFaults = [] ∧
  (∀ s t : State, Invariant s → step s = .next t → t.readFaults = s.readFaults) ∧
  ∀ (s t : State) (i : Instr), exec i s = .next t →
    ∃ fs, t.readFaults = s.readFaults ++ fs ∧ t.fresh = s.fresh + fs.length
end

