-- ==== Sys2Proof/Tests/Slice0.lean ====
section
/-! SUPPORT. Tests on fixed values from spec 95_test_vectors, and one witness per hypothesis of the obligations. -/

namespace Sys2Proof.Tests

open Sys2Proof Sys2Proof.Machine

/-! ### Small states -/

/-- An instance small enough to read: 2 modes of 2 keys, 4 intervals a slot, one margin unit, the store at 10 .. 33. -/
def small : Config := { cap := 4, psStride := 6, psBase := 10, nmodes := 2, nkeys := 2 }

/-- Slot (0, 1), at 16, holds 9, 8, 7. -/
def smallStore : Memory := [(16, 3), (17, 9), (18, 8), (19, 7)]

def ready : State := powerOn small [] smallStore

def copying : State := { ready with copy := true }

def displaying : State := { ready with arb := .modeDisplay, wake := true }

/-- A recording into slot (0, 1) with `buf` in the buffer and the last count `old`. -/
def recordingOf (n : Word) (old : Word) (buf : List (Option Word)) : State :=
  { copying with
    arb := .recording, eng := .recording, owner := .capture, caparm := true, slot := some ⟨0, 1⟩,
    ecnt := some n, oldc := some old, rbuf := buf }

def recording : State := recordingOf 2 30 [some 10, some 20, none, none]

/-- One edge below capacity. -/
def almostFull : State := recordingOf 3 45 [some 10, some 20, some 15, none]

/-- At capacity, which no run reaches. -/
def full : State := recordingOf 4 45 [some 10, some 20, some 15, some 0]

/-- Slot (0, 1) in its first period. -/
def playing : State := setArb .playing (playFrom ⟨0, 1⟩ 9 (press ready))

/-- Slot (0, 1) in its last period. -/
def lastPlaying : State := { playing with cur := some 3, envp := some 7 }

/-- A result that is a next state with the property. -/
def yields (r : Result) (p : State → Bool) : Bool :=
  match r with
  | .next s => p s
  | .fault _ => false
  | .refused _ => false

/-! ### Well-formedness and decoding (30_encoding R80, R83, R88) -/

theorem test_wellFormed_key_limit :
    wellFormed Config.default (.key 15) = true ∧ wellFormed Config.default (.key 16) = false := by decide

theorem test_decode_words_bit_by_bit :
    decode Config.default 0b00000001000000000000000000000000#32 = .ok .por ∧
    decode Config.default 0b00000010000000001000000000000101#32 = .ok (.edge 0x8005) ∧
    decode Config.default 0b00000011000000000000000000000000#32 = .ok .env ∧
    decode Config.default 0b00000100000000000000000000001101#32 = .ok (.key 13) ∧
    decode Config.default 0b00000101000000000000000000000000#32 = .ok .copy ∧
    decode Config.default 0b00000110000000000000000000000000#32 = .ok .ok ∧
    decode Config.default 0b00000111000000000000000000000000#32 = .ok .mode ∧
    decode Config.default 0b00001000000000000000000000000000#32 = .ok .settle ∧
    decode Config.default 0b00001001000000000000000000000000#32 = .ok .tmo ∧
    decode Config.default 0b00001010000000000000000000000000#32 = .ok .sleep := by
  refine ⟨?_, ?_, ?_, ?_, ?_, ?_, ?_, ?_, ?_, ?_⟩ <;> rfl

/-- V-E14 to V-E21. -/
theorem test_decode_refusals :
    decode Config.default 0x00000000 = .error .reservedOpcode ∧
    decode Config.default 0x0B000000 = .error .reservedOpcode ∧
    decode Config.default 0xFF000000 = .error .reservedOpcode ∧
    decode Config.default 0x03000001 = .error .nonzeroOperand ∧
    decode Config.default 0x01000001 = .error .nonzeroOperand ∧
    decode Config.default 0x04010000 = .error .nonzeroReservedBits ∧
    decode Config.default 0x02FF000A = .error .nonzeroReservedBits ∧
    decode Config.default 0x04000010 = .error .keyOutOfRange := by
  refine ⟨?_, ?_, ?_, ?_, ?_, ?_, ?_, ?_⟩ <;> rfl

theorem test_table_word_decodes : decodeTableWord 32 0x0200000A = some (.edge 10) := by rfl

/-- V-E4, V-E22, V-E24 as lines of text (R86, R87). -/
theorem test_assemble_lines :
    assembleLine Config.default "EDGE 0xFFFF ; last".toList = .ok [0x0200FFFF] ∧
    assembleLine Config.default "PRESS COPY".toList = .ok [0x05000000, 0x08000000] ∧
    assembleLine Config.default "EDGES 0xFFF0, 0x20".toList = .ok [0x0200FFF0, 0x02000010] := by
  refine ⟨?_, ?_, ?_⟩ <;> rfl

theorem test_assemble_refuses_key_16 :
    assembleLine Config.default "KEY 16".toList = .error .outOfRange := by rfl

/-! ### The store (20_memory) -/

/-- V-M5, V-M6. -/
theorem test_slot_addresses :
    psAddr Config.default ⟨1, 0⟩ = 4128 ∧ psAddr Config.default ⟨2, 15⟩ = 12126 ∧ Config.default.storeEnd = 12384 := by
  decide

/-- V-M8: a unit beyond the length is stale and is not read. -/
theorem test_read_stops_at_length :
    psRead { ready with ps := [(16, 2), (17, 500), (18, 400), (19, 15)] } ⟨0, 1⟩ = .ok (some [500, 400]) := by rfl

theorem test_store_canonical :
    Memory.wf small smallStore = true ∧ Memory.wf small [(17, 9), (16, 3)] = false ∧
      Memory.wf small [(16, 0)] = false ∧ Memory.wf small [(9, 1)] = false := by decide

/-! ### One step of each event -/

/-- V-C13: the recording is lost, the store kept. -/
theorem test_por_in_recording : exec .por recording = .next ready := by rfl

/-- V-C4, second edge: the delta wraps. -/
theorem test_edge_delta_wraps :
    yields (exec (.edge 0x0010) (recordingOf 1 0xFFF0 [some 0xFFF0, none, none, none]))
      (fun s => s.rbuf = [some 0xFFF0, some 0x0020, none, none] ∧ s.ecnt = some 2 ∧ s.oldc = some 0x0010) = true := by
  decide

/-- P2 event 7: the fourth edge fills a slot of four and completes. -/
theorem test_edge_fills_slot :
    yields (exec (.edge 0x8010) (recordingOf 3 0x0010 [some 0xFFF0, some 0x0020, some 0, none]))
      (fun s => s.ps = [(16, 4), (17, 0xFFF0), (18, 0x0020), (19, 0), (20, 0x8000)] ∧ s.eng = .idle ∧ s.wake) = true := by
  decide

/-- V-P4, first boundary: the next period is loaded and the enable line toggles. -/
theorem test_env_loads_period :
    yields (exec .env playing) (fun s => s.envp = some 8 ∧ s.cur = some 2 ∧ s.outen) = true := by decide

/-- P1 event 20: the last boundary completes. -/
theorem test_env_completes :
    yields (exec .env lastPlaying)
      (fun s => s.eng = .idle ∧ s.carr = false ∧ s.btnie ∧ s.disp = some (.modeName 0) ∧ s.envp = none) = true := by decide

/-- V-A8. -/
theorem test_key_starts_capture :
    yields (exec (.key 3) { State.reset with copy := true, mode := 1 })
      (fun s => s.eng = .recording ∧ s.slot = some ⟨1, 3⟩ ∧ s.ecnt = some 0 ∧ s.owner = .capture) = true := by decide

/-- V-P8: `ENV_INIT = 1`. -/
theorem test_key_starts_playback :
    yields (exec (.key 1) { ready with cfg := { small with envInit := true } })
      (fun s => s.eng = .playing ∧ s.envp = some 9 ∧ s.cur = some 1 ∧ s.outen ∧ s.btnie = false) = true := by decide

/-- V-A2. -/
theorem test_copy_toggles_off :
    yields (exec .copy { State.reset with copy := true, mode := 2 })
      (fun s => s.copy = false ∧ s.disp = some (.modeName 2) ∧ s.latch = .pressed) = true := by decide

/-- V-A15: a cancel stores what was recorded and keeps the copy flag. -/
theorem test_copy_cancels :
    yields (exec .copy recording) (fun s => s.ps = [(16, 2), (17, 10), (18, 20), (19, 7)] ∧ s.copy ∧ s.eng = .idle) = true := by
  decide

/-- V-A3. -/
theorem test_ok_leaves_copy_mode :
    yields (exec .ok { State.reset with copy := true, mode := 1 })
      (fun s => s.copy = false ∧ s.disp = some (.modeName 1) ∧ s.eng = .idle) = true := by decide

/-- V-C11: a cancel with no edge erases the length and leaves the intervals. -/
theorem test_ok_erases :
    yields (exec .ok (recordingOf 0 0 [none, none, none, none]))
      (fun s => s.ps = [(17, 9), (18, 8), (19, 7)] ∧ s.copy ∧ s.wake) = true := by decide

/-- V-A6: the wrap. -/
theorem test_mode_wraps :
    yields (exec .mode { State.reset with mode := 2 })
      (fun s => s.mode = 0 ∧ s.arb = .modeDisplay ∧ s.disp = some (.modeName 0) ∧ s.wake) = true := by decide

/-- V-A7: one mode. -/
theorem test_mode_alone :
    yields (exec .mode { ready with cfg := { small with nmodes := 1 } }) (fun s => s.mode = 0 ∧ s.arb = .modeDisplay) = true := by
  decide

/-- V-P7. -/
theorem test_settle_in_playback : exec .settle playing = .next { playing with latch := .ready } := by rfl

/-- V-C7. -/
theorem test_tmo_stores :
    yields (exec .tmo recording) (fun s => s.ps = [(16, 2), (17, 10), (18, 20), (19, 7)] ∧ s.rbuf = [none, none, none, none]) = true := by
  decide

/-- V-C10. -/
theorem test_tmo_outside_recording : exec .tmo playing = .next playing := by rfl

/-- V-S3. -/
theorem test_sleep_leaves_display : exec .sleep displaying = .next ready := by rfl

/-- V-S4. -/
theorem test_sleep_in_recording :
    exec .sleep { recording with wake := true } = .next recording := by rfl

/-! ### Witnesses: states that meet the invariants -/

theorem test_slots_ok (m k : Nat) (hm : m < 2) (hk : k < 2) : slotOk ready ⟨m, k⟩ = true :=
  (by decide : ∀ m, m < 2 → ∀ k, k < 2 → slotOk ready ⟨m, k⟩ = true) m hm k hk

theorem test_ready_invariant : Invariant ready where
  params := by decide
  modeRange := by decide
  storeWf := by decide
  slots := test_slots_ok
  idle _ := by constructor <;> simp [ready, powerOn]
  recording h := by simp [ready, powerOn] at h
  playing h := by simp [ready, powerOn] at h
  locked := rfl
  awakeDisplay h := by simp [ready, powerOn] at h

theorem test_copying_invariant : Invariant copying where
  params := by decide
  modeRange := by decide
  storeWf := by decide
  slots := test_slots_ok
  idle _ := by constructor <;> simp [copying, ready, powerOn]
  recording h := by simp [copying, ready, powerOn] at h
  playing h := by simp [copying, ready, powerOn] at h
  locked := rfl
  awakeDisplay h := by simp [copying, ready, powerOn] at h

theorem test_displaying_invariant : Invariant displaying where
  params := by decide
  modeRange := by decide
  storeWf := by decide
  slots := test_slots_ok
  idle _ := by constructor <;> simp [displaying, ready, powerOn]
  recording h := by simp [displaying, ready, powerOn] at h
  playing h := by simp [displaying, ready, powerOn] at h
  locked := rfl
  awakeDisplay _ := rfl

theorem test_almostFull_invariant : Invariant almostFull where
  params := by decide
  modeRange := by decide
  storeWf := by decide
  slots := test_slots_ok
  idle h := by simp [almostFull, recordingOf] at h
  recording _ :=
    ⟨rfl, rfl, rfl, rfl, rfl, rfl, rfl, rfl, rfl, ⟨_, rfl⟩, ⟨1, by decide, rfl⟩, ⟨3, [10, 20, 15], rfl, by decide, rfl, rfl⟩⟩
  playing h := by simp [almostFull, recordingOf] at h
  locked := rfl
  awakeDisplay h := by simp [almostFull, recordingOf] at h

theorem test_playing_invariant : Invariant playing where
  params := by decide
  modeRange := by decide
  storeWf := by decide
  slots := test_slots_ok
  idle h := by simp [playing, playFrom, setArb] at h
  recording h := by simp [playing, playFrom, setArb] at h
  playing _ :=
    ⟨rfl, rfl, rfl, rfl, rfl, rfl, rfl, rfl, rfl, rfl, ⟨1, 1, 3, 9, by decide, rfl, rfl, rfl, by decide, by decide, rfl, rfl, rfl⟩⟩
  locked := rfl
  awakeDisplay h := by simp [playing, playFrom, setArb] at h

theorem test_lastPlaying_invariant : Invariant lastPlaying where
  params := by decide
  modeRange := by decide
  storeWf := by decide
  slots := test_slots_ok
  idle h := by simp [lastPlaying, playing, playFrom, setArb] at h
  recording h := by simp [lastPlaying, playing, playFrom, setArb] at h
  playing _ :=
    ⟨rfl, rfl, rfl, rfl, rfl, rfl, rfl, rfl, rfl, rfl, ⟨1, 3, 3, 7, by decide, rfl, rfl, rfl, by decide, by decide, rfl, rfl, rfl⟩⟩
  locked := rfl
  awakeDisplay h := by simp [lastPlaying, playing, playFrom, setArb] at h

/-! ### Witnesses: encoding and the step -/

theorem test_witness_DecodeOfEncodeIsTheEvent :
    WellFormed Config.default (.key 15) ∧ WellFormed Config.default (.edge 65535) := by decide

theorem test_witness_EncodeOfDecodeIsTheWord :
    decode Config.default 0x0200FFFF = .ok (.edge 65535) ∧ decode Config.default 0x0400000F = .ok (.key 15) := by
  constructor <;> rfl

theorem test_witness_MalformedWordHasNoStep :
    Defect Config.default 0x0B000000 .reservedOpcode ∧ Defect Config.default 0x00000000 .reservedOpcode ∧
    Defect Config.default 0x02FF000A .nonzeroReservedBits ∧ Defect Config.default 0x0A000001 .nonzeroOperand ∧
    Defect Config.default 0x04000010 .keyOutOfRange ∧
    (deliverWord 0x04000010 ready).stream = 0x04000010 :: [] ∧
    decode (deliverWord 0x04000010 ready).cfg 0x04000010 = .error .keyOutOfRange := by
  refine ⟨?_, ?_, ?_, ?_, ?_, rfl, rfl⟩ <;> simp only [Defect] <;> decide

theorem test_witness_StepRunsTheDecodedEvent :
    (deliverWord 0x04000001 ready).stream = 0x04000001 :: [] ∧
    decode (deliverWord 0x04000001 ready).cfg 0x04000001 = .ok (.key 1) := ⟨rfl, rfl⟩

theorem test_witness_DeliveredEventRunsNext : WellFormed ready.cfg (.key 1) ∧ ready.stream = [] := ⟨by decide, rfl⟩

theorem test_witness_AssembledDisassemblyIsTheWord :
    WellFormed Config.default (.key 15) ∧ assembleLine Config.default "KEY 15".toList = .ok [0x0400000F] :=
  ⟨by decide, rfl⟩

theorem test_witness_PseudoEventsExpand :
    1 < [0xFFF0#16, 0x20#16].length ∧ (pseudoEdges [0xFFF0, 0x20])[1]? = some (.edge 16) := ⟨by decide, rfl⟩

/-! ### Witnesses: the store -/

theorem test_witness_SlotRecordsNeverOverlap :
    small.Ok ∧ Config.default.Ok ∧ 1 < small.nmodes ∧ 1 < small.nkeys ∧ (⟨0, 1⟩ : SlotRef) ≠ ⟨1, 0⟩ := by decide

theorem test_witness_StoreReadsBackTheRun :
    memWrite (unlock ready) 16 [1, 2] = .next { unlock ready with ps := [(16, 1), (17, 2), (18, 8), (19, 7)] } ∧
    (unlock ready).ps.wf (unlock ready).cfg = true ∧ ¬(16 ≤ 18 ∧ 18 < 16 + [1#16, 2#16].length) := by
  refine ⟨rfl, by decide, by decide⟩

theorem test_witness_LockedStoreRefusesWrites :
    ready.nvmwp = true ∧ (unlock ready).nvmwp = false ∧ inStore (unlock ready).cfg 33 [1#16].length = true := by decide

theorem test_witness_SlotReadReturnsItsIntervals :
    psLen ready ⟨0, 0⟩ = .ok 0 ∧ psLen ready ⟨0, 1⟩ = .ok 3 ∧
    ∀ i (h : i < [9#16, 8, 7].length), psIvl ready ⟨0, 1⟩ i = .ok [9#16, 8, 7][i] := by
  refine ⟨rfl, rfl, fun i h => ?_⟩
  have : i < 3 := h
  interval_cases i <;> rfl

theorem test_witness_ResetStateHasNoCode : 2 < State.reset.cfg.nmodes ∧ 15 < State.reset.cfg.nkeys := by decide

/-! ### Witnesses: the arbiter and the gates -/

theorem test_witness_SleepParksTheMainFlow : ready.wake = false ∧ displaying.wake = true := ⟨rfl, rfl⟩

theorem test_witness_ClosedGateDropsTheEvent :
    gateOpen ready (.edge 5) = false ∧ gateOpen ready .env = false ∧ gateOpen playing (.key 1) = false ∧
    WellFormed playing.cfg (.key 1) ∧ gateOpen (press ready) .mode = false := by decide

/-- The gate's two halves, and the three states of the arbiter the button rules tell apart, with a recording they can end. -/
theorem test_witness_button_clauses :
    playing.btnie = false ∧ (press ready).latch = .pressed ∧
    (copying.btnie = true ∧ copying.latch = .ready ∧ copying.arb = .idle ∧ copying.copy = true) ∧
    (displaying.btnie = true ∧ displaying.latch = .ready ∧ displaying.arb = .modeDisplay ∧ displaying.copy = false) ∧
    (recording.btnie = true ∧ recording.latch = .ready ∧ recording.arb = .recording) := by decide

theorem test_witness_Holds :
    Holds recording ⟨0, 1⟩ 2 [10, 20] ∧ Holds full ⟨0, 1⟩ 4 [10, 20, 15, 0] ∧
    Holds (recordingOf 0 0 [none, none, none, none]) ⟨0, 1⟩ 0 [] :=
  ⟨⟨rfl, rfl, rfl, rfl, by decide⟩, ⟨rfl, rfl, rfl, rfl, by decide⟩, ⟨rfl, rfl, rfl, rfl, by decide⟩⟩

theorem test_witness_KeyPressStartsAnEngine :
    (1#16).toNat < ready.cfg.nkeys ∧ ready.copy = false ∧ psLen ready ⟨ready.mode, (1#16).toNat⟩ = .ok 3 ∧
    0 < (3#16).toNat ∧ psIvl ready ⟨ready.mode, (1#16).toNat⟩ 0 = .ok 9 ∧
    psLen ready ⟨ready.mode, (0#16).toNat⟩ = .ok 0 := by
  refine ⟨by decide, rfl, rfl, by decide, rfl, rfl⟩

theorem test_witness_RecordingIgnoresKeypadAndMode :
    (∃ k : Word, k.toNat < recording.cfg.nkeys ∧ Instr.key 1 = .key k) ∧ recording.btnie = true ∧
    recording.latch = .ready ∧ recording.arb = .recording := ⟨⟨1, by decide, rfl⟩, rfl, rfl, rfl⟩

theorem test_witness_ModeDisplayActsAsIdle :
    displaying.arb = .modeDisplay ∧ displaying.wake = true ∧ (Instr.key 0).isButton = true := by decide

theorem test_witness_DebounceAcceptsOnePress :
    Instr.copy.isButton = true ∧ buttonGate ready = true ∧ exec .copy ready = .next (toggleCopy (press ready)) ∧
    (press ready).latch = .pressed ∧
    (∀ i ∈ [Instr.mode, .tmo, .key 1], i ≠ .settle ∧ i ≠ .por ∧ WellFormed (press ready).cfg i) ∧
    runEvents [Instr.mode, .tmo, .key 1] (press ready) = .next (press ready) := by
  refine ⟨rfl, rfl, rfl, rfl, by decide, rfl⟩

/-! ### Witnesses: capture and playback -/

theorem test_witness_EdgeFollowsTheCaptureRule :
    ready.caparm = false ∧
    (recording.caparm = true ∧ recording.oldc = some 30 ∧ recording.ecnt = some 2 ∧ (2#16).toNat < recording.cfg.cap ∧
      (2#16 + 1).toNat ≠ recording.cfg.cap) ∧
    (almostFull.ecnt = some 3 ∧ (3#16).toNat < almostFull.cfg.cap ∧ (3#16 + 1).toNat = almostFull.cfg.cap ∧
      (3#16).toNat < almostFull.rbuf.length ∧ almostFull.slot = some ⟨0, 1⟩ ∧
      almostFull.rbuf.take (3#16).toNat = [10#16, 20, 15].map some ∧
      inStore almostFull.cfg (psAddr almostFull.cfg ⟨0, 1⟩) (almostFull.cfg.cap + 1) = true) ∧
    (full.ecnt = some 4 ∧ (4#16).toNat = full.cfg.cap) ∧
    ((recordingOf 5 0 []).ecnt = some 5 ∧ (recordingOf 5 0 []).cfg.cap < (5#16).toNat) := by decide

theorem test_witness_TmoStopsTheRecording : ready.eng ≠ .recording ∧ recording.eng = .recording := by decide

theorem test_witness_RecordingRoundTrip :
    Invariant copying ∧ copying.eng = .idle ∧ copying.latch = .ready ∧ copying.copy = true ∧
    (1#16).toNat < copying.cfg.nkeys ∧ [10#16, 20, 15, 0].length ≤ copying.cfg.cap ∧
    ([Instr.settle, .ok] ∈ [[Instr.tmo], [.settle, .ok], [.settle, .copy]] ∨
      ([Instr.settle, .ok] = [] ∧ [10#16, 20, 15, 0].length = copying.cfg.cap)) ∧
    (([] : List Instr) = [] ∧ [10#16, 20, 15, 0].length = copying.cfg.cap) :=
  ⟨test_copying_invariant, rfl, rfl, rfl, by decide, by decide, by decide, by decide⟩

theorem test_witness_RecordingTruncatesAtCapacity :
    Invariant copying ∧ copying.eng = .idle ∧ copying.latch = .ready ∧ copying.copy = true ∧
    (1#16).toNat < copying.cfg.nkeys ∧ copying.cfg.cap < [1#16, 2, 3, 4, 5].length :=
  ⟨test_copying_invariant, rfl, rfl, rfl, by decide, by decide⟩

theorem test_witness_EnvWalksTheSlot :
    ready.enven = false ∧
    (playing.enven = true ∧ playing.slot = some ⟨0, 1⟩ ∧ psLen playing ⟨0, 1⟩ = .ok 3 ∧ playing.cur = some 1 ∧
      (1#16).toNat < (3#16).toNat ∧ psIvl playing ⟨0, 1⟩ (1#16).toNat = .ok 8) ∧
    (lastPlaying.enven = true ∧ lastPlaying.cur = some 3 ∧ ¬ (3#16).toNat < (3#16).toNat) := by
  refine ⟨rfl, ⟨rfl, rfl, rfl, rfl, by decide, rfl⟩, rfl, rfl, by decide⟩

theorem test_witness_PlaybackReplaysTheSlot :
    Invariant ready ∧ ready.eng = .idle ∧ ready.latch = .ready ∧ ready.copy = false ∧ (1#16).toNat < ready.cfg.nkeys ∧
    psRead ready ⟨ready.mode, (1#16).toNat⟩ = .ok (some [9, 8, 7]) ∧ 2 < [9#16, 8, 7].length :=
  ⟨test_ready_invariant, rfl, rfl, rfl, by decide, rfl, by decide⟩

theorem test_witness_PlaybackIgnoresButtons :
    Invariant playing ∧ playing.eng = .playing ∧ Instr.mode.isButton = true ∧ WellFormed playing.cfg .mode ∧
    exec .tmo playing = .next playing := ⟨test_playing_invariant, rfl, rfl, rfl, rfl⟩

theorem test_witness_PlaybackAdvancesOnlyByEnv :
    (Invariant playing ∧ playing.eng = .playing ∧ exec .env playing = .next (loadPeriod 8 1 playing) ∧
      playing.slot = some ⟨0, 1⟩ ∧ psLen playing ⟨0, 1⟩ = .ok 3 ∧ playing.cur = some 1) ∧
    (Invariant lastPlaying ∧ exec .env lastPlaying = .next (pdone lastPlaying) ∧ lastPlaying.cur = some 3) ∧
    exec .settle playing = .next { playing with latch := .ready } :=
  ⟨⟨test_playing_invariant, rfl, rfl, rfl, rfl, rfl⟩, ⟨test_lastPlaying_invariant, rfl, rfl⟩, rfl⟩

/-! ### Witnesses: invariants and whole-machine rules -/

theorem test_witness_StepKeepsTheInvariants :
    Invariant ready ∧
    step ready = .refused .streamEnd ∧
    step (ready.withFetchWord 32 0x05000000) = .next (toggleCopy (press ready)) := ⟨test_ready_invariant, rfl, rfl⟩

theorem test_delivered_invariant : Invariant (ready.withFetchWord 32 0x05000000) where
  params := by decide
  modeRange := by decide
  storeWf := by decide
  slots := test_slots_ok
  idle _ := by constructor <;> simp [State.withFetchWord, deliverWord, ready, powerOn]
  recording h := by simp [State.withFetchWord, deliverWord, ready, powerOn] at h
  playing h := by simp [State.withFetchWord, deliverWord, ready, powerOn] at h
  locked := rfl
  awakeDisplay h := by simp [State.withFetchWord, deliverWord, ready, powerOn] at h

theorem test_witness_EveryEventCompletes :
    Invariant almostFull ∧ WellFormed almostFull.cfg (.edge 50) ∧ Invariant lastPlaying ∧ WellFormed lastPlaying.cfg .env :=
  ⟨test_almostFull_invariant, rfl, test_lastPlaying_invariant, rfl⟩

/-- Each tag of the engine, for the statements over the invariants. -/
theorem test_witness_engine_tags :
    (Invariant displaying ∧ displaying.eng = .idle ∧ displaying.arb = .modeDisplay) ∧
    (Invariant almostFull ∧ almostFull.eng = .recording) ∧ (Invariant playing ∧ playing.eng = .playing) ∧
    1 < playing.cfg.nmodes ∧ 1 < playing.cfg.nkeys :=
  ⟨⟨test_displaying_invariant, rfl, rfl⟩, ⟨test_almostFull_invariant, rfl⟩, ⟨test_playing_invariant, rfl⟩, by decide, by decide⟩

theorem test_witness_ModeAndCopyChangeUnderTheLatch :
    exec .mode ready = .next (advanceMode (press ready)) ∧ (advanceMode (press ready)).mode ≠ ready.mode ∧
    exec .copy ready = .next (toggleCopy (press ready)) ∧ (toggleCopy (press ready)).copy ≠ ready.copy := by
  refine ⟨rfl, by decide, rfl, by decide⟩

theorem test_witness_WakeFlagFollowsItsRule :
    Invariant ready ∧ exec .mode ready = .next (advanceMode (press ready)) ∧ Invariant lastPlaying ∧
    exec .env lastPlaying = .next (pdone lastPlaying) ∧ Completes .env lastPlaying (pdone lastPlaying) :=
  ⟨test_ready_invariant, rfl, test_lastPlaying_invariant, rfl, by decide, by decide, rfl⟩

theorem test_witness_ArbiterFollowsTheTransitionTable :
    Invariant copying ∧ exec (.key 1) copying = .next (setArb .recording (cstart ⟨0, 1⟩ (press copying))) ∧
    arbAfter copying (.key 1) = .recording := ⟨test_copying_invariant, rfl, rfl⟩

theorem test_witness_StoreChangesOnlyAtCompletion :
    Invariant almostFull ∧
    yields (exec .tmo almostFull)
      (fun t => t.ps.read t.cfg 17 ≠ almostFull.ps.read almostFull.cfg 17 ∧ t.eng = .idle) = true :=
  ⟨test_almostFull_invariant, by decide⟩

theorem test_witness_EventsKeepParametersAndStream : exec .env playing = .next (loadPeriod 8 1 playing) := rfl

theorem test_witness_LaunchMeetsTheInvariants :
    launch small [0x05000000] smallStore = .next (powerOn small [0x05000000] smallStore) ∧
    small.Ok ∧ storeOk (powerOn small [0x05000000] smallStore) = true ∧ Invariant (powerOn small [] smallStore) ∧
    ¬ ({ small with cap := 0 } : Config).Ok ∧ ¬ ({ small with cap := 6 } : Config).Ok ∧
    psLen (powerOn small [] [(16, 5)]) ⟨0, 1⟩ = .ok 5 ∧ small.cap < (5#16).toNat := by
  refine ⟨?_, by decide, by decide, test_ready_invariant, by decide, by decide, rfl, by decide⟩
  rw [launch, if_pos (by decide)]

/-- Each element without a value in a state that reads it, at the first and at a later place of the buffer. -/
theorem test_witness_NoValueReadsAreFree :
    (recording.caparm = true ∧ ({ recording with oldc := none } : State).oldc = none ∧
      recording.oldc ≠ none ∧ ({ recording with ecnt := none } : State).ecnt = none) ∧
    (almostFull.oldc ≠ none ∧ almostFull.ecnt = some 3 ∧ (3#16).toNat < almostFull.cfg.cap ∧
      (3#16 + 1).toNat = almostFull.cfg.cap ∧ (recordingOf 3 45 [none]).rbuf[0]? = some none ∧ 0 < (3#16).toNat) ∧
    (full.caparm = true ∧ full.oldc ≠ none ∧ full.ecnt = some 4 ∧ (4#16).toNat = full.cfg.cap) ∧
    (recording.eng = .recording ∧ buttonGate recording = true ∧ inIdle recording = false ∧ recording.slot ≠ none) ∧
    ((2#16).toNat < (3#16).toNat ∧ recording.rbuf[2]? = some none ∧ ∀ l, l < 2 → ∃ v, recording.rbuf[l]? = some (some v)) ∧
    (ready.rbuf[0]? = some none ∧ 0 < (1#16).toNat) ∧
    (playing.enven = true ∧ playing.slot = some ⟨0, 1⟩ ∧ psLen playing ⟨0, 1⟩ = .ok 3) ∧
    small.Ok ∧ 1 ≤ (1#16).toNat := by
  refine ⟨by decide, by decide, by decide, by decide, ⟨by decide, rfl, fun l h => ?_⟩, by decide, ⟨rfl, rfl, rfl⟩, by decide,
    by decide⟩
  interval_cases l
  · exact ⟨10, rfl⟩
  · exact ⟨20, rfl⟩

/-- A cursor that holds no value: the fault is reported and the event goes on, whatever the free value is (R56). -/
theorem test_env_without_cursor (h : (freeCursor 3 0).toNat < 3) :
    exec .env { playing with cur := none } = withRead (psIvl playing ⟨0, 1⟩ (freeCursor 3 0).toNat) fun p =>
      .next (loadPeriod p (freeCursor 3 0) { playing with cur := some (freeCursor 3 0), fresh := 1, readFaults := [.cur] }) :=
  if_pos h

/-- The registers below the count that hold no value are the ones reported (R56). -/
theorem test_buffer_faults : bufferFaults [some 10, none, some 20, none] 4 0 = [.rbuf 1, .rbuf 3] := rfl

theorem test_witness_NoRunReadsAnElementWithoutValue :
    Invariant (ready.withFetchWord 32 0x05000000) ∧
    step (ready.withFetchWord 32 0x05000000) = .next (toggleCopy (press ready)) ∧
    exec .env playing = .next (loadPeriod 8 1 playing) := ⟨test_delivered_invariant, rfl, rfl⟩

theorem test_witness_EventsCompleteWithoutValues :
    small.Ok ∧ ({ almostFull with slot := none, ecnt := none, oldc := none } : State).mode < small.nmodes ∧
    (∀ m k, m < 2 → k < 2 → slotOk { almostFull with slot := none, ecnt := none, oldc := none } ⟨m, k⟩ = true) ∧
    (∀ sl, almostFull.slot = some sl → sl.m < small.nmodes ∧ sl.k < small.nkeys) ∧
    (∀ n, full.ecnt = some n → n.toNat ≤ small.cap) ∧ WellFormed small (.edge 50) := by
  refine ⟨by decide, by decide, test_slots_ok, fun sl h => ?_, fun n h => ?_, rfl⟩ <;> cases h <;> decide

theorem test_witness_OutputSilentOutsidePlayback :
    Invariant almostFull ∧ almostFull.eng ≠ .playing ∧
    iroutActive (loadPeriod 8 1 playing) = true := ⟨test_almostFull_invariant, by decide, rfl⟩

end Sys2Proof.Tests
end

/-! ### Reading back a stored run (R13, R74) -/

namespace Sys2Proof.Machine

/-- A run of units that each hold a value reads as the list of those values. -/
theorem readRun_of_read {s : State} {a : Nat} {vs : List Word}
    (h : ∀ i (hi : i < vs.length), s.ps.read s.cfg (a + i) = some vs[i]) : readRun s a vs.length = .ok vs := by
  induction vs generalizing a with
  | nil => rfl
  | cons v vs ih =>
    have hfirst : s.ps.read s.cfg a = some v := h 0 (Nat.zero_lt_succ _)
    have hrest : readRun s (a + 1) vs.length = .ok vs := ih fun i hi => by
      simpa [Nat.add_assoc, Nat.add_comm 1 i] using h (i + 1) (Nat.succ_lt_succ hi)
    simp [readRun, hfirst, hrest]

/-- `MemRead` of a run inside the store whose units each hold a value returns those values (R13). -/
theorem memRead_of_read {s : State} {a : Nat} {vs : List Word} (hr : inStore s.cfg a vs.length = true)
    (h : ∀ i (hi : i < vs.length), s.ps.read s.cfg (a + i) = some vs[i]) : memRead s a vs.length = .ok vs :=
  (if_pos hr).trans (readRun_of_read h)

/-- Inside a stored run, each unit holds its value of the run. -/
theorem Memory.read_writeRun_inside {c : Config} {m : Memory} {a i : Nat} {vs : List Word} (hi : i < vs.length) :
    (m.writeRun c a vs).read c (a + i) = some vs[i] := by
  rw [Memory.read_writeRun, if_pos ⟨Nat.le_add_right a i, Nat.add_lt_add_left hi a⟩, Nat.add_sub_cancel_left,
    List.getElem?_eq_getElem hi]

/-- Outside a stored run, each unit holds what it held. -/
theorem Memory.read_writeRun_outside {c : Config} {m : Memory} {a b : Nat} {vs : List Word}
    (hb : ¬(a ≤ b ∧ b < a + vs.length)) : (m.writeRun c a vs).read c b = m.read c b :=
  Memory.read_writeRun.trans (if_neg hb)

/-- Settles O11: a write that answers has stored the run inside the store, and the laws of a stored run give each clause. -/
theorem storeReadsBackTheRun : Obligations.StoreReadsBackTheRun := by
  intro s t a vs h
  have hwf := memWrite_wf h
  obtain ⟨-, hr, rfl⟩ := memWrite_next h
  exact ⟨memRead_of_read hr fun _ hi => Memory.read_writeRun_inside hi, fun _ hb => Memory.read_writeRun_outside hb, hwf⟩

end Sys2Proof.Machine

/-! ### What the invariants say by the engine's tag (10_state section 5) -/

namespace Sys2Proof.Machine

/-- A state that meets the invariants has the data of its engine's tag (R48). -/
theorem Invariant.eng_cases {s : State} (h : Invariant s) :
    (s.eng = .idle ∧ IdleData s) ∨ (s.eng = .recording ∧ RecordingData s) ∨ (s.eng = .playing ∧ PlayingData s) := by
  cases he : s.eng with
  | idle => exact .inl ⟨rfl, h.idle he⟩
  | recording => exact .inr (.inl ⟨rfl, h.recording he⟩)
  | playing => exact .inr (.inr ⟨rfl, h.playing he⟩)

/-- Settles O37: the data of each of the three tags fix every line of R48 to R57. -/
theorem engineTagFixesTheChannels : Obligations.EngineTagFixesTheChannels := by
  intro s h
  obtain ⟨he, d⟩ | ⟨he, d⟩ | ⟨he, d⟩ := h.eng_cases
  · have harb : s.arb ≠ .recording ∧ s.arb ≠ .playing := by rcases d.arb with ha | ha <;> simp [ha]
    simpa [he, d.owner, d.caparm, d.enven, d.carr, d.btnie, d.arb, harb, h.locked] using h.awakeDisplay
  · simp [he, d.arb, d.owner, d.caparm, d.enven, d.carr, d.btnie, h.locked]
  · simp [he, d.arb, d.owner, d.caparm, d.enven, d.carr, d.btnie, h.locked]

theorem Invariant.recording_iff_caparm {s : State} (h : Invariant s) : s.eng = .recording ↔ s.caparm = true := by
  obtain ⟨-, -, -, -, harm, -⟩ := engineTagFixesTheChannels s h
  exact harm

theorem Invariant.playing_iff_enven {s : State} (h : Invariant s) : s.eng = .playing ↔ s.enven = true := by
  obtain ⟨-, -, -, -, -, -, -, henven, -⟩ := engineTagFixesTheChannels s h
  exact henven

theorem Invariant.playing_iff_carr {s : State} (h : Invariant s) : s.eng = .playing ↔ s.carr = true := by
  obtain ⟨-, -, -, -, -, -, -, -, hcarr, -⟩ := engineTagFixesTheChannels s h
  exact hcarr

/-- Settles O46: outside a playback the carrier is off. -/
theorem outputSilentOutsidePlayback : Obligations.OutputSilentOutsidePlayback := by
  refine fun s => ⟨by simp [iroutActive], fun h hp => ?_⟩
  have hcarr : ¬ s.carr = true := mt h.playing_iff_carr.mpr hp
  simp [iroutActive, hcarr]

/-- Settles O38: the lengths are the launch premise on the slots, the rest the data of the engine's tag. -/
theorem registersFollowTheEngine : Obligations.RegistersFollowTheEngine := by
  refine fun s h => ⟨fun he => ?_, fun m k hm hk => ?_, fun he => ?_⟩
  · obtain ⟨n, -, hn, hcap, -⟩ := (h.recording he).buffer
    exact ⟨(h.recording he).copy, n, hn, hcap⟩
  · obtain ⟨n, hn, hcap, -⟩ := slotOk_iff.mp (h.slots m k hm hk)
    exact ⟨n, hn, hcap⟩
  · obtain ⟨k, i, n, v, -, hslot, hcur, hlen, h1, hi, hv, henv, hout⟩ := (h.playing he).cursor
    exact ⟨(h.playing he).copy, _, i, n, v, hslot, hcur, hlen, h1.trans hi, h1, hi, hv, henv, hout⟩

/-! ### The store that nothing has written (R47) -/

section Slots

variable {c : Config} {sl : SlotRef}

theorem slotIndex_lt_nslots (hm : sl.m < c.nmodes) (hk : sl.k < c.nkeys) : slotIndex c sl < c.nslots :=
  calc sl.m * c.nkeys + sl.k
    _ < (sl.m + 1) * c.nkeys := by rw [Nat.succ_mul]; omega
    _ ≤ c.nmodes * c.nkeys := Nat.mul_le_mul_right _ hm

/-- A slot's stride ends inside the store (R63). -/
theorem psAddr_add_stride_le (hm : sl.m < c.nmodes) (hk : sl.k < c.nkeys) : psAddr c sl + c.psStride ≤ c.storeEnd := by
  have h : (slotIndex c sl + 1) * c.psStride ≤ c.nslots * c.psStride :=
    Nat.mul_le_mul_right _ (slotIndex_lt_nslots hm hk)
  rw [Nat.succ_mul] at h
  unfold psAddr Config.storeEnd
  omega

/-- A slot's length unit and at most `CAP` interval units lie in the store (R63). -/
theorem inStore_psAddr {n : Nat} (hc : c.Ok) (hm : sl.m < c.nmodes) (hk : sl.k < c.nkeys) (hn : n ≤ c.cap) :
    inStore c (psAddr c sl) (n + 1) = true := by
  have hend := psAddr_add_stride_le hm hk
  obtain ⟨-, -, hstride, -⟩ := hc
  exact inStore_iff.mpr ⟨Nat.le_add_right .., by omega⟩

theorem isLengthUnit_psAddr (hc : c.Ok) (hm : sl.m < c.nmodes) (hk : sl.k < c.nkeys) :
    isLengthUnit c (psAddr c sl) = true := by
  have hend := psAddr_add_stride_le hm hk
  obtain ⟨-, -, hstride, -⟩ := hc
  have hbase : c.psBase ≤ psAddr c sl := Nat.le_add_right ..
  have hlt : psAddr c sl < c.storeEnd := by omega
  have hmod : (psAddr c sl - c.psBase) % c.psStride = 0 := by simp [psAddr]
  simp [isLengthUnit, hbase, hlt, hmod]

/-- A slot of a store never written has length 0, "no code" (R47). -/
theorem psLen_of_ps_nil {s : State} (hp : s.ps = []) (hc : s.cfg.Ok) (hm : sl.m < s.cfg.nmodes)
    (hk : sl.k < s.cfg.nkeys) : psLen s sl = .ok 0 :=
  memReadUnit_ok.mpr ⟨inStore_psAddr hc hm hk (Nat.zero_le _), by
    simp [hp, Memory.read, unlisted, isLengthUnit_psAddr hc hm hk]⟩

theorem slotOk_of_psLen_zero {s : State} (h : psLen s sl = .ok 0) : slotOk s sl = true :=
  slotOk_iff.mpr ⟨0, h, Nat.zero_le _, fun i hi => absurd hi (Nat.not_lt_zero i)⟩

end Slots

theorem psLen_reset {m k : Nat} (hm : m < State.reset.cfg.nmodes) (hk : k < State.reset.cfg.nkeys) :
    psLen State.reset ⟨m, k⟩ = .ok 0 :=
  psLen_of_ps_nil rfl (by decide) hm hk

/-- Settles O15: every slot of the store never written has length 0. -/
theorem resetStateHasNoCode : Obligations.ResetStateHasNoCode :=
  ⟨rfl, fun m k hm hk => by simp [psRead, psLen_reset hm hk]⟩

/-- Settles O34: reset is idle, and its slots hold no code. -/
theorem resetMeetsTheInvariants : Obligations.ResetMeetsTheInvariants where
  params := by decide
  modeRange := by decide
  storeWf := reset_ps_wf
  slots m k hm hk := slotOk_of_psLen_zero (psLen_reset hm hk)
  idle _ := ⟨.inl rfl, rfl, rfl, rfl, rfl, rfl, rfl, rfl, rfl, rfl, rfl, rfl⟩
  recording h := nomatch h
  playing h := nomatch h
  locked := rfl
  awakeDisplay h := nomatch h

/-! ### The step (R43, R171) -/

theorem fetchWord_cons {s : State} {w : EventWord} {rest : List EventWord} (h : s.stream = w :: rest) :
    fetchWord s = some (w, { s with stream := rest }) := by
  simp [fetchWord, h]

/-- Settles O6: the fetch answers the next word and the rest of the stream. -/
theorem stepRunsTheDecodedEvent : Obligations.StepRunsTheDecodedEvent := by
  intro s w rest i hs hd
  simp [step, fetchWord_cons hs, hd]

/-- Everything a step that answers can do: take the next word, which decodes to an event, and run that event. -/
theorem step_next {s t : State} (h : step s = .next t) :
    ∃ w rest i, s.stream = w :: rest ∧ decode s.cfg w = .ok i ∧ exec i { s with stream := rest } = .next t := by
  cases hs : s.stream with
  | nil => simp [step, fetchWord, hs] at h
  | cons w rest =>
    cases hd : decode s.cfg w with
    | ok i => exact ⟨w, rest, i, rfl, hd, by rwa [stepRunsTheDecodedEvent s w rest i hs hd] at h⟩
    | error r => simp [step, fetchWord_cons hs, hd] at h

end Sys2Proof.Machine

/-! ### What an event can do (42_arbiter R136, R140 to R145; 40_capture R104; 43_system R160) -/

namespace Sys2Proof.Machine

/-- Everything a button event that answers can do: the edge is dropped at a closed gate, or it is accepted and the event and
the arbiter's state choose the rest. -/
inductive ButtonNext (s : State) : Instr → State → Prop where
  | dropped {i : Instr} (hg : buttonGate s = false) : ButtonNext s i s
  | ignored {i : Instr} (hg : buttonGate s = true) (hi : i = .mode ∨ ∃ k, i = .key k) (ha : inIdle s = false) :
      ButtonNext s i (press s)
  | cancels {i : Instr} {t : State} (hg : buttonGate s = true) (hi : i = .copy ∨ i = .ok) (ha : inIdle s = false)
      (h : cdone (press s) = .next t) : ButtonNext s i t
  | records {k : Word} (hg : buttonGate s = true) (ha : inIdle s = true) (hc : s.copy = true) :
      ButtonNext s (.key k) (setArb .recording (cstart (slotForKey s k) (press s)))
  | plays {k n v : Word} (hg : buttonGate s = true) (ha : inIdle s = true) (hc : s.copy = false)
      (hn : psLen s (slotForKey s k) = .ok n) (hpos : 0 < n.toNat) (hv : psIvl s (slotForKey s k) 0 = .ok v) :
      ButtonNext s (.key k) (setArb .playing (playFrom (slotForKey s k) v (press s)))
  | noCode {k : Word} (hg : buttonGate s = true) (ha : inIdle s = true) (hc : s.copy = false)
      (hn : psLen s (slotForKey s k) = .ok 0) : ButtonNext s (.key k) (setDisp .noCode (press s))
  | toggles (hg : buttonGate s = true) (ha : inIdle s = true) : ButtonNext s .copy (toggleCopy (press s))
  | leaves (hg : buttonGate s = true) (ha : inIdle s = true) (hc : s.copy = true) :
      ButtonNext s .ok (leaveCopy (press s))
  | stays (hg : buttonGate s = true) (ha : inIdle s = true) (hc : s.copy = false) : ButtonNext s .ok (press s)
  | advances (hg : buttonGate s = true) (ha : inIdle s = true) : ButtonNext s .mode (advanceMode (press s))

variable {s t : State}

theorem onAccept_next {i : Instr} {f : State → Result} (h : onAccept s f = .next t)
    (hf : buttonGate s = true → f (press s) = .next t → ButtonNext s i t) : ButtonNext s i t := by
  obtain ⟨hg, e⟩ | ⟨hg, e⟩ := onAccept_cases (s := s) (f := f) <;> rw [e] at h
  · exact hf hg h
  · cases h
    exact .dropped hg

/-- Everything KEY's playback branch that answers can do: start a playback of a slot that holds a code, or ask for the
"no code" indicator. -/
theorem keyPlay_next {sl : SlotRef} (h : keyPlay sl s = .next t) :
    (∃ n v, psLen s sl = .ok n ∧ 0 < n.toNat ∧ psIvl s sl 0 = .ok v ∧ t = setArb .playing (playFrom sl v s)) ∨
    (psLen s sl = .ok 0 ∧ t = setDisp .noCode s) := by
  obtain ⟨n, hn, h⟩ := withRead_eq_next h
  split at h
  case isTrue hpos =>
    obtain ⟨u, hu, h⟩ := andThen_eq_next h
    obtain ⟨v, hv, rfl⟩ := pstart_next hu
    cases h
    exact .inl ⟨n, v, hn, hpos, hv, rfl⟩
  case isFalse hpos =>
    have hzero : n = 0 := BitVec.eq_of_toNat_eq (Nat.eq_zero_of_not_pos hpos)
    cases h
    exact .inr ⟨hzero ▸ hn, rfl⟩

theorem execKey_next {k : Word} (h : execKey k s = .next t) : ButtonNext s (.key k) t := by
  unfold execKey at h
  split at h
  · refine onAccept_next h fun hg h => ?_
    split at h
    case isTrue ha =>
      split at h
      case isTrue hc =>
        cases h
        exact .records hg ha hc
      case isFalse hc =>
        have hc : s.copy = false := Bool.eq_false_iff.mpr hc
        obtain ⟨n, v, hn, hpos, hv, rfl⟩ | ⟨hn, rfl⟩ := keyPlay_next h
        · exact .plays hg ha hc hn hpos hv
        · exact .noCode hg ha hc hn
    case isFalse ha =>
      cases h
      exact .ignored hg (.inr ⟨k, rfl⟩) (Bool.eq_false_iff.mpr ha)
  · cases h

theorem execCopy_next (h : execCopy s = .next t) : ButtonNext s .copy t := by
  refine onAccept_next h fun hg h => ?_
  split at h
  case isTrue ha =>
    cases h
    exact .toggles hg ha
  case isFalse ha => exact .cancels hg (.inl rfl) (Bool.eq_false_iff.mpr ha) h

theorem execOk_next (h : execOk s = .next t) : ButtonNext s .ok t := by
  refine onAccept_next h fun hg h => ?_
  split at h
  case isTrue ha =>
    split at h
    case isTrue hc =>
      cases h
      exact .leaves hg ha hc
    case isFalse hc =>
      cases h
      exact .stays hg ha (Bool.eq_false_iff.mpr hc)
  case isFalse ha => exact .cancels hg (.inr rfl) (Bool.eq_false_iff.mpr ha) h

theorem execMode_next (h : execMode s = .next t) : ButtonNext s .mode t := by
  refine onAccept_next h fun hg h => ?_
  split at h
  case isTrue ha =>
    cases h
    exact .advances hg ha
  case isFalse ha =>
    cases h
    exact .ignored hg (.inl rfl) (Bool.eq_false_iff.mpr ha)

theorem execTmo_next (h : execTmo s = .next t) :
    (s.eng = .recording ∧ cdone s = .next t) ∨ (s.eng ≠ .recording ∧ t = s) := by
  unfold execTmo at h
  split at h
  case isTrue he => exact .inl ⟨he, h⟩
  case isFalse he =>
    cases h
    exact .inr ⟨he, rfl⟩

theorem execSleep_next (h : execSleep s = .next t) : (s.wake = true ∧ t = park s) ∨ (s.wake = false ∧ t = s) := by
  unfold execSleep at h
  split at h
  case isTrue hw =>
    cases h
    exact .inl ⟨hw, rfl⟩
  case isFalse hw =>
    cases h
    exact .inr ⟨Bool.eq_false_iff.mpr hw, rfl⟩

end Sys2Proof.Machine

/-! ### What an event keeps: one frame for every event (R43, R56, R58) -/

namespace Sys2Proof.Machine

/-- What every part of an event but POR, and but the latch's writers ACCEPT and SETTLE, keeps: the parameters, the stream and
the latch; it adds to the faults reported, and takes as many free values. -/
structure EventFrame (s t : State) : Prop where
  cfg : t.cfg = s.cfg
  stream : t.stream = s.stream
  latch : t.latch = s.latch
  reports : ∃ fs, t.readFaults = s.readFaults ++ fs ∧ t.fresh = s.fresh + fs.length

/-- A part of an event that reads no element without a value. -/
theorem EventFrame.of_no_report {s t : State} (hc : t.cfg = s.cfg) (hs : t.stream = s.stream) (hl : t.latch = s.latch)
    (hr : t.readFaults = s.readFaults) (hf : t.fresh = s.fresh) : EventFrame s t :=
  ⟨hc, hs, hl, [], by simp [hr], by simp [hf]⟩

/-- The frame of the two engines' operations, which leave `MODE` and `COPY` alone as well. -/
structure EngineFrame (s t : State) : Prop extends EventFrame s t where
  mode : t.mode = s.mode
  copy : t.copy = s.copy

theorem EngineFrame.refl (s : State) : EngineFrame s s := ⟨.of_no_report rfl rfl rfl rfl rfl, rfl, rfl⟩

theorem EventFrame.trans {s t u : State} (h : EventFrame s t) (h' : EventFrame t u) : EventFrame s u := by
  obtain ⟨fs, hr, hf⟩ := h.reports
  obtain ⟨fs', hr', hf'⟩ := h'.reports
  exact ⟨h'.cfg.trans h.cfg, h'.stream.trans h.stream, h'.latch.trans h.latch, fs ++ fs', by simp [hr', hr],
    by simp [hf', hf, Nat.add_assoc]⟩

theorem EngineFrame.trans {s t u : State} (h : EngineFrame s t) (h' : EngineFrame t u) : EngineFrame s u :=
  ⟨h.toEventFrame.trans h'.toEventFrame, h'.mode.trans h.mode, h'.copy.trans h.copy⟩

/-! ### The frame of each event's arm -/

section Arms

variable {s t : State}

theorem cdone_frame (h : cdone s = .next t) : EngineFrame s t := by
  obtain ⟨sl, n, vs, fs, -, -, -, rfl⟩ := cdone_next h
  exact ⟨⟨rfl, rfl, rfl, fs, rfl, rfl⟩, rfl, rfl⟩

theorem appendDelta_frame (d n : Word) (s : State) : EngineFrame s (appendDelta d n s) := by
  unfold appendDelta
  split
  · exact ⟨.of_no_report rfl rfl rfl rfl rfl, rfl, rfl⟩
  · exact .refl s

theorem edgeFinish_frame {cnt : Word} (h : edgeFinish cnt s = .next t) : EngineFrame s t := by
  obtain ⟨n, fs, e, -⟩ := readEcnt_cases (s := s)
  rw [edgeFinish, e] at h
  have hread : EngineFrame s { reportFaults fs s with ecnt := some n, oldc := some cnt } :=
    ⟨⟨rfl, rfl, rfl, fs, rfl, rfl⟩, rfl, rfl⟩
  split at h
  · exact hread.trans (cdone_frame h)
  · cases h
    exact hread

theorem execEdge_frame {cnt : Word} (h : execEdge cnt s = .next t) : EngineFrame s t := by
  unfold execEdge at h
  split at h
  · obtain ⟨old, fs, e, -⟩ := readOldc_cases (s := s)
    rw [e] at h
    obtain ⟨n, fs', e, -⟩ := readEcnt_cases (s := { reportFaults fs s with oldc := some old })
    rw [e] at h
    refine .trans ?_ ((appendDelta_frame _ _ _).trans (edgeFinish_frame h))
    exact ⟨⟨rfl, rfl, rfl, fs ++ fs', by simp, by simp [Nat.add_assoc]⟩, rfl, rfl⟩
  · cases h
    exact .refl s

theorem execTmo_frame (h : execTmo s = .next t) : EngineFrame s t := by
  obtain ⟨-, h⟩ | ⟨-, rfl⟩ := execTmo_next h
  · exact cdone_frame h
  · exact .refl _

theorem execEnv_frame (h : execEnv s = .next t) : EngineFrame s t := by
  unfold execEnv at h
  split at h
  · obtain ⟨sl, fs, e, -⟩ := readSlot_cases (s := s)
    rw [e] at h
    obtain ⟨n, -, h⟩ := withRead_eq_next h
    obtain ⟨i, fs', e, -⟩ := readCur_cases (n := n) (s := { reportFaults fs s with slot := some sl })
    rw [e] at h
    have hread : EngineFrame s { reportFaults fs' { reportFaults fs s with slot := some sl } with cur := some i } :=
      ⟨⟨rfl, rfl, rfl, fs ++ fs', by simp, by simp [Nat.add_assoc]⟩, rfl, rfl⟩
    refine hread.trans ?_
    split at h
    · obtain ⟨v, -, h⟩ := withRead_eq_next h
      cases h
      exact ⟨.of_no_report rfl rfl rfl rfl rfl, rfl, rfl⟩
    · cases h
      exact ⟨.of_no_report rfl rfl rfl rfl rfl, rfl, rfl⟩
  · cases h
    exact .refl s

theorem execSleep_frame (h : execSleep s = .next t) : EngineFrame s t := by
  obtain ⟨-, rfl⟩ | ⟨-, rfl⟩ := execSleep_next h
  · exact ⟨.of_no_report rfl rfl rfl rfl rfl, rfl, rfl⟩
  · exact .refl _

/-- A button event is dropped, or keeps the frame of the pressed state (R136). -/
theorem ButtonNext.frame {i : Instr} (h : ButtonNext s i t) :
    EngineFrame s t ∨ (buttonGate s = true ∧ EventFrame (press s) t) := by
  cases h with
  | dropped _ => exact .inl (.refl s)
  | ignored hg _ _ => exact .inr ⟨hg, (EngineFrame.refl _).toEventFrame⟩
  | stays hg _ _ => exact .inr ⟨hg, (EngineFrame.refl _).toEventFrame⟩
  | cancels hg _ _ h => exact .inr ⟨hg, (cdone_frame h).toEventFrame⟩
  | records hg _ _ => exact .inr ⟨hg, .of_no_report rfl rfl rfl rfl rfl⟩
  | plays hg _ _ _ _ _ => exact .inr ⟨hg, .of_no_report rfl rfl rfl rfl rfl⟩
  | noCode hg _ _ _ => exact .inr ⟨hg, .of_no_report rfl rfl rfl rfl rfl⟩
  | toggles hg _ => exact .inr ⟨hg, .of_no_report rfl rfl rfl rfl rfl⟩
  | leaves hg _ _ => exact .inr ⟨hg, .of_no_report rfl rfl rfl rfl rfl⟩
  | advances hg _ => exact .inr ⟨hg, .of_no_report rfl rfl rfl rfl rfl⟩

end Arms

/-! ### The frame of every event -/

/-- Everything an event that answers can do: reset, release the latch, keep the engines' frame, or, where a button edge is
accepted, keep the frame of the pressed state. -/
theorem exec_frame {s t : State} {i : Instr} (h : exec i s = .next t) :
    (i = .por ∧ t = { powerOn s.cfg s.stream s.ps with fresh := s.fresh, readFaults := s.readFaults }) ∨
    (i = .settle ∧ t = { s with latch := .ready }) ∨ EngineFrame s t ∨
    (buttonGate s = true ∧ EventFrame (press s) t) := by
  cases i with
  | por => cases h; exact .inl ⟨rfl, rfl⟩
  | settle => cases h; exact .inr (.inl ⟨rfl, rfl⟩)
  | edge cnt => exact .inr (.inr (.inl (execEdge_frame h)))
  | env => exact .inr (.inr (.inl (execEnv_frame h)))
  | tmo => exact .inr (.inr (.inl (execTmo_frame h)))
  | sleep => exact .inr (.inr (.inl (execSleep_frame h)))
  | key k => exact .inr (.inr (execKey_next h).frame)
  | copy => exact .inr (.inr (execCopy_next h).frame)
  | ok => exact .inr (.inr (execOk_next h).frame)
  | mode => exact .inr (.inr (execMode_next h).frame)

/-- Settles O43: each of the four things an event can do keeps both fields. -/
theorem eventsKeepParametersAndStream : Obligations.EventsKeepParametersAndStream := by
  intro s t i h
  obtain ⟨-, rfl⟩ | ⟨-, rfl⟩ | hf | ⟨-, hf⟩ := exec_frame h
  · exact ⟨rfl, rfl⟩
  · exact ⟨rfl, rfl⟩
  · exact ⟨hf.cfg, hf.stream⟩
  · exact ⟨hf.cfg, hf.stream⟩

/-- Settles O39: outside POR only an accepted button edge leaves the engines' frame, and ACCEPT set the latch. -/
theorem modeAndCopyChangeUnderTheLatch : Obligations.ModeAndCopyChangeUnderTheLatch := by
  intro s t i h hne
  obtain ⟨hi, -⟩ | ⟨-, rfl⟩ | hf | ⟨hg, hf⟩ := exec_frame h
  · exact .inl hi
  · simp at hne
  · simp [hf.mode, hf.copy] at hne
  · exact .inr ⟨(buttonGate_iff.mp hg).2, hf.latch⟩

/-- An event keeps the faults reported before it and takes one free value for each fault it adds (log entry 3). -/
theorem exec_reports {s t : State} {i : Instr} (h : exec i s = .next t) :
    ∃ fs, t.readFaults = s.readFaults ++ fs ∧ t.fresh = s.fresh + fs.length := by
  obtain ⟨-, rfl⟩ | ⟨-, rfl⟩ | hf | ⟨-, hf⟩ := exec_frame h
  · exact ⟨[], by simp⟩
  · exact ⟨[], by simp⟩
  · exact hf.reports
  · exact hf.reports

end Sys2Proof.Machine

/-! ### ENVP and DISP are outputs (R56) -/

namespace Sys2Proof.Machine

/-- The state with the two outputs taken out. -/
def hideState (s : State) : State := { s with envp := none, disp := none }

/-- `f` does the same, but for the outputs, whatever `ENVP` and `DISP` are. -/
def IgnoresOutputs (f : State → Result) : Prop := ∀ s, hideOutputs (f (hideState s)) = hideOutputs (f s)

theorem ignoresOutputs_next {g : State → State} (h : ∀ s, hideState (g (hideState s)) = hideState (g s)) :
    IgnoresOutputs fun s => .next (g s) := fun s => congrArg Host.Outcome.next (h s)

theorem ignoresOutputs_ite {p : State → Prop} [DecidablePred p] {f g : State → Result} (hp : ∀ s, p (hideState s) ↔ p s)
    (hf : IgnoresOutputs f) (hg : IgnoresOutputs g) : IgnoresOutputs fun s => if p s then f s else g s := by
  intro s
  by_cases h : p s
  · simpa [h, (hp s).mpr h] using hf s
  · simpa [h, mt (hp s).mp h] using hg s

section Sequencing

variable {s : State} {α : Type}

theorem withRead_hideOutputs {r : Except Fault α} {f g : α → Result} (h : ∀ v, hideOutputs (f v) = hideOutputs (g v)) :
    hideOutputs (withRead r f) = hideOutputs (withRead r g) := by
  cases r with
  | ok v => exact h v
  | error e => rfl

theorem andThen_hideOutputs {r r' : Result} {f : State → Result} (hr : hideOutputs r = hideOutputs r')
    (hf : IgnoresOutputs f) : hideOutputs (andThen r f) = hideOutputs (andThen r' f) := by
  have through (r : Result) : hideOutputs (andThen (hideOutputs r) f) = hideOutputs (andThen r f) := by
    cases r with
    | next t => exact hf t
    | fault e => rfl
    | refused e => rfl
  rw [← through r, hr, through r']

theorem readElement_ignoresOutputs {e : ReadFault} {get : State → Option α} {put : α → State → State} {free : Nat → α}
    {f : α → State → Result} (hget : get (hideState s) = get s)
    (hput : ∀ v t, put v (hideState t) = hideState (put v t)) (hf : ∀ v, IgnoresOutputs (f v)) :
    hideOutputs (readElement e get put free (hideState s) f) = hideOutputs (readElement e get put free s f) := by
  unfold readElement
  rw [hget]
  cases get s with
  | some v => exact hf v s
  | none =>
    change hideOutputs (f _ (put _ (hideState (reportFaults [e] s)))) = _
    rw [hput]
    exact hf _ _

theorem readSlot_ignoresOutputs {f : SlotRef → State → Result} (hf : ∀ v, IgnoresOutputs (f v)) :
    hideOutputs (readSlot (hideState s) f) = hideOutputs (readSlot s f) :=
  readElement_ignoresOutputs rfl (fun _ _ => rfl) hf

theorem readEcnt_ignoresOutputs {f : Word → State → Result} (hf : ∀ v, IgnoresOutputs (f v)) :
    hideOutputs (readEcnt (hideState s) f) = hideOutputs (readEcnt s f) :=
  readElement_ignoresOutputs rfl (fun _ _ => rfl) hf

theorem readCur_ignoresOutputs {n : Word} {f : Word → State → Result} (hf : ∀ v, IgnoresOutputs (f v)) :
    hideOutputs (readCur n (hideState s) f) = hideOutputs (readCur n s f) :=
  readElement_ignoresOutputs rfl (fun _ _ => rfl) hf

theorem readOldc_ignoresOutputs {f : Word → State → Result} (hf : ∀ v, IgnoresOutputs (f v)) :
    hideOutputs (readOldc (hideState s) f) = hideOutputs (readOldc s f) :=
  readElement_ignoresOutputs rfl (fun _ _ => rfl) hf

theorem memWrite_ignoresOutputs (a : Nat) (vs : List Word) : IgnoresOutputs (memWrite · a vs) := by
  refine ignoresOutputs_ite (fun _ => Iff.rfl) (fun _ => rfl) (ignoresOutputs_ite (fun _ => Iff.rfl) ?_ fun _ => rfl)
  exact ignoresOutputs_next fun _ => rfl

theorem onAccept_ignoresOutputs {f : State → Result} (hf : IgnoresOutputs f) : IgnoresOutputs (onAccept · f) := by
  intro s
  have hgate : buttonGate (hideState s) = buttonGate s := rfl
  dsimp only
  obtain ⟨hg, e⟩ | ⟨hg, e⟩ := onAccept_cases (s := s) (f := f)
  · rw [e, onAccept_open (hgate.trans hg)]
    exact hf (press s)
  · rw [e, onAccept_closed (hgate.trans hg)]
    rfl

end Sequencing

/-! ### Each event's arm ignores the outputs -/

theorem cdone_ignoresOutputs : IgnoresOutputs cdone := by
  intro s
  unfold cdone
  refine readSlot_ignoresOutputs fun sl t => readEcnt_ignoresOutputs fun n u => ?_
  refine andThen_hideOutputs (memWrite_ignoresOutputs _ _ (unlock (reportFaults _ u))) fun w => ?_
  exact andThen_hideOutputs (memWrite_ignoresOutputs _ _ w) (ignoresOutputs_next fun _ => rfl)

theorem appendDelta_hideState (d n : Word) (s : State) : appendDelta d n (hideState s) = hideState (appendDelta d n s) := by
  unfold appendDelta
  rw [apply_ite hideState]
  rfl

theorem edgeFinish_ignoresOutputs (cnt : Word) : IgnoresOutputs (edgeFinish cnt) := by
  intro s
  unfold edgeFinish
  refine readEcnt_ignoresOutputs fun n => ?_
  exact ignoresOutputs_ite (fun _ => Iff.rfl) (fun t => cdone_ignoresOutputs { t with oldc := some cnt })
    (ignoresOutputs_next fun _ => rfl)

theorem execEdge_ignoresOutputs (cnt : Word) : IgnoresOutputs (execEdge cnt) := by
  refine ignoresOutputs_ite (fun _ => Iff.rfl) (fun s => ?_) (ignoresOutputs_next fun _ => rfl)
  refine readOldc_ignoresOutputs fun old t => readEcnt_ignoresOutputs fun n u => ?_
  rw [appendDelta_hideState]
  exact edgeFinish_ignoresOutputs cnt _

theorem execEnv_ignoresOutputs : IgnoresOutputs execEnv := by
  refine ignoresOutputs_ite (fun _ => Iff.rfl) (fun s => ?_) (ignoresOutputs_next fun _ => rfl)
  refine readSlot_ignoresOutputs fun sl t => withRead_hideOutputs fun n => readCur_ignoresOutputs fun i => ?_
  exact ignoresOutputs_ite (fun _ => Iff.rfl) (fun u => withRead_hideOutputs fun v => rfl)
    (ignoresOutputs_next fun _ => rfl)

theorem execTmo_ignoresOutputs : IgnoresOutputs execTmo :=
  ignoresOutputs_ite (fun _ => Iff.rfl) cdone_ignoresOutputs (ignoresOutputs_next fun _ => rfl)

theorem keyPlay_ignoresOutputs (sl : SlotRef) : IgnoresOutputs (keyPlay sl) := by
  refine fun s => withRead_hideOutputs fun n => ?_
  split
  · exact andThen_hideOutputs (withRead_hideOutputs fun v => rfl) (ignoresOutputs_next fun _ => rfl)
  · rfl

theorem execKey_ignoresOutputs (k : Word) : IgnoresOutputs (execKey k) := by
  refine ignoresOutputs_ite (fun _ => Iff.rfl) (onAccept_ignoresOutputs ?_) fun _ => rfl
  refine ignoresOutputs_ite (fun _ => Iff.rfl) ?_ (ignoresOutputs_next fun _ => rfl)
  exact ignoresOutputs_ite (fun _ => Iff.rfl) (ignoresOutputs_next fun _ => rfl) fun s => keyPlay_ignoresOutputs _ s

theorem execCopy_ignoresOutputs : IgnoresOutputs execCopy :=
  onAccept_ignoresOutputs <|
    ignoresOutputs_ite (fun _ => Iff.rfl) (ignoresOutputs_next fun _ => rfl) cdone_ignoresOutputs

theorem execOk_ignoresOutputs : IgnoresOutputs execOk :=
  onAccept_ignoresOutputs <| ignoresOutputs_ite (fun _ => Iff.rfl)
    (ignoresOutputs_ite (fun _ => Iff.rfl) (ignoresOutputs_next fun _ => rfl) (ignoresOutputs_next fun _ => rfl))
    cdone_ignoresOutputs

theorem execMode_ignoresOutputs : IgnoresOutputs execMode :=
  onAccept_ignoresOutputs <|
    ignoresOutputs_ite (fun _ => Iff.rfl) (ignoresOutputs_next fun _ => rfl) (ignoresOutputs_next fun _ => rfl)

theorem exec_ignoresOutputs (i : Instr) : IgnoresOutputs (exec i) := by
  cases i with
  | por => exact ignoresOutputs_next fun _ => rfl
  | edge cnt => exact execEdge_ignoresOutputs cnt
  | env => exact execEnv_ignoresOutputs
  | key k => exact execKey_ignoresOutputs k
  | copy => exact execCopy_ignoresOutputs
  | ok => exact execOk_ignoresOutputs
  | mode => exact execMode_ignoresOutputs
  | settle => exact ignoresOutputs_next fun _ => rfl
  | tmo => exact execTmo_ignoresOutputs
  | sleep =>
    exact ignoresOutputs_ite (fun _ => Iff.rfl) (ignoresOutputs_next fun _ => rfl) (ignoresOutputs_next fun _ => rfl)

/-- Settles O45: states that differ in the outputs are the same once the outputs are taken out. -/
theorem outputsAreNeverRead : Obligations.OutputsAreNeverRead := fun s i v d =>
  (exec_ignoresOutputs i { s with envp := v, disp := d }).symm.trans (exec_ignoresOutputs i s)

end Sys2Proof.Machine

/-! ### EDGE with its registers read (R103) -/

namespace Sys2Proof.Machine

section Edge

variable {s : State} {cnt old n d : Word}

theorem appendDelta_below (h : n.toNat < s.cfg.cap) :
    appendDelta d n s = { s with rbuf := s.rbuf.set n.toNat (some d), ecnt := some (n + 1) } :=
  if_pos h

theorem appendDelta_full (h : ¬ n.toNat < s.cfg.cap) : appendDelta d n s = s := if_neg h

theorem execEdge_unarmed (h : s.caparm = false) : execEdge cnt s = .next s := by
  simp [execEdge, h]

/-- While armed, `OLDC` and `ECNT` give the delta and the place to append it. -/
theorem execEdge_armed (ha : s.caparm = true) (ho : s.oldc = some old) (hn : s.ecnt = some n) :
    execEdge cnt s = edgeFinish cnt (appendDelta (cnt - old) n s) := by
  simp [execEdge, ha, readOldc_some ho, readEcnt_some hn, captureDelta, sub16]

theorem edgeFinish_at_capacity (hn : s.ecnt = some n) (h : n.toNat = s.cfg.cap) :
    edgeFinish cnt s = cdone { s with oldc := some cnt } := by
  simp [edgeFinish, readEcnt_some hn, h]

theorem edgeFinish_off_capacity (hn : s.ecnt = some n) (h : n.toNat ≠ s.cfg.cap) :
    edgeFinish cnt s = .next { s with oldc := some cnt } := by
  simp [edgeFinish, readEcnt_some hn, h]

theorem execEdge_at_capacity (ha : s.caparm = true) (ho : s.oldc = some old) (hn : s.ecnt = some n)
    (h : n.toNat = s.cfg.cap) : execEdge cnt s = cdone { s with oldc := some cnt } := by
  rw [execEdge_armed ha ho hn, appendDelta_full (by omega), edgeFinish_at_capacity hn h]

theorem execEdge_reaches_capacity (ha : s.caparm = true) (ho : s.oldc = some old) (hn : s.ecnt = some n)
    (hlt : n.toNat < s.cfg.cap) (h : (n + 1).toNat = s.cfg.cap) :
    execEdge cnt s =
      cdone { s with rbuf := s.rbuf.set n.toNat (some (cnt - old)), ecnt := some (n + 1), oldc := some cnt } := by
  rw [execEdge_armed ha ho hn, appendDelta_below hlt]
  exact edgeFinish_at_capacity rfl h

theorem execEdge_below_capacity (ha : s.caparm = true) (ho : s.oldc = some old) (hn : s.ecnt = some n)
    (hlt : n.toNat < s.cfg.cap) (h : (n + 1).toNat ≠ s.cfg.cap) :
    execEdge cnt s =
      .next { s with rbuf := s.rbuf.set n.toNat (some (cnt - old)), ecnt := some (n + 1), oldc := some cnt } := by
  rw [execEdge_armed ha ho hn, appendDelta_below hlt]
  exact edgeFinish_off_capacity rfl h

end Edge

/-! ### ENV with its slot read (R123) -/

theorem execEnv_disabled {s : State} (h : s.enven = false) : execEnv s = .next s := by
  simp [execEnv, h]

/-- While enabled, the slot's length says whether the cursor's period is loaded or the playback completes. -/
theorem execEnv_enabled {s : State} {sl : SlotRef} {n : Word} (he : s.enven = true) (hs : s.slot = some sl)
    (hn : psLen s sl = .ok n) :
    execEnv s = readCur n s fun i u =>
      if i.toNat < n.toNat then withRead (psIvl u sl i.toNat) fun v => .next (loadPeriod v i u)
      else .next (pdone u) := by
  simp [execEnv, he, readSlot_some hs, hn]

/-! ### Capture completion as a function of what it reads (R106) -/

/-- What CDONE does once it has read the slot, the count and the intervals: the slot write and the return to `Idle`. -/
def storeSlot (sl : SlotRef) (n : Word) (vs : List Word) (s : State) : Result :=
  andThen (memWrite (unlock s) (psAddr s.cfg sl + 1) vs) fun w =>
  andThen (memWrite w (psAddr s.cfg sl) [n]) fun x => .next (captureIdle (lock x))

theorem reportFaults_reportFaults (fs gs : List ReadFault) (s : State) :
    reportFaults gs (reportFaults fs s) = reportFaults (fs ++ gs) s := by
  simp [reportFaults, Nat.add_assoc]

section Completion

variable {s : State} {sl : SlotRef} {n : Word}

theorem cdone_eq_storeSlot (hs : s.slot = some sl) (hn : s.ecnt = some n) :
    cdone s =
      storeSlot sl n (bufferPrefix s.rbuf n.toNat s.fresh) (reportFaults (bufferFaults s.rbuf n.toNat 0) s) := by
  simp [cdone, readSlot_some hs, readEcnt_some hn, readBuffer, storeSlot]

/-- The completion leaves the buffer empty, whatever it held. -/
theorem storeSlot_rbuf (vs : List Word) (r : List (Option Word)) :
    storeSlot sl n vs { s with rbuf := r } = storeSlot sl n vs s := by
  by_cases h1 : inStore s.cfg (psAddr s.cfg sl + 1) vs.length = true
  · by_cases h2 : inStore s.cfg (psAddr s.cfg sl) 1 = true
    · simp [storeSlot, memWrite, unlock, lock, captureIdle, h1, h2]
    · simp [storeSlot, memWrite, unlock, h1, h2]
  · simp [storeSlot, memWrite, h1]

/-- CDONE reports the first register below the count that holds no value, and does what it does with the next free value
there. -/
theorem cdone_rbuf_none {j : Nat} (hs : s.slot = some sl) (hn : s.ecnt = some n) (hj : j < n.toNat)
    (hr : s.rbuf[j]? = some none) (hl : ∀ l, l < j → ∃ v, s.rbuf[l]? = some (some v)) :
    cdone s = cdone { reportFaults [.rbuf j] s with rbuf := s.rbuf.set j (some (freeWord s.fresh)) } := by
  obtain ⟨hprefix, hfaults⟩ := buffer_set s.fresh 0 hj hr hl
  rw [cdone_eq_storeSlot hs hn, cdone_eq_storeSlot (s := { reportFaults [.rbuf j] s with rbuf := _ }) hs hn, hprefix,
    hfaults, Nat.zero_add, ← List.singleton_append, ← reportFaults_reportFaults]
  exact (storeSlot_rbuf _ _).symm

end Completion

/-! ### Reads of elements that hold no value (R56; log entry 3) -/

section FreeReads

variable {s : State} {cnt : Word} {i : Instr}

theorem execEdge_oldc_none (ha : s.caparm = true) (h : s.oldc = none) :
    execEdge cnt s = execEdge cnt { reportFaults [.oldc] s with oldc := some (freeWord s.fresh) } := by
  simp [execEdge, ha, readOldc_none h, readOldc_some]

theorem execEdge_ecnt_none (ha : s.caparm = true) (ho : s.oldc ≠ none) (h : s.ecnt = none) :
    execEdge cnt s = execEdge cnt { reportFaults [.ecnt] s with ecnt := some (freeCount s.cfg s.fresh) } := by
  obtain ⟨old, ho⟩ := Option.ne_none_iff_exists'.mp ho
  simp [execEdge, ha, readOldc_some, ho, readEcnt_none h, readEcnt_some]

theorem execEnv_slot_none (he : s.enven = true) (h : s.slot = none) :
    execEnv s = execEnv { reportFaults [.slot] s with slot := some (freeSlot s.cfg s.fresh) } := by
  simp [execEnv, he, readSlot_none h, readSlot_some]

theorem execEnv_cur_none {sl : SlotRef} {n : Word} (he : s.enven = true) (hs : s.slot = some sl)
    (hn : psLen s sl = .ok n) (h : s.cur = none) :
    execEnv s = execEnv { reportFaults [.cur] s with cur := some (freeCursor n s.fresh) } := by
  have hn' : psLen { reportFaults [.cur] s with cur := some (freeCursor n s.fresh) } sl = .ok n :=
    (psLen_congr rfl rfl).trans hn
  rw [execEnv_enabled he hs hn, readCur_none h]
  exact .symm ((execEnv_enabled (s := { reportFaults [.cur] s with cur := _ }) he hs hn').trans (readCur_some rfl))

/-- Where `TMO`, `COPY` or `OK` completes a recording, it is CDONE behind the latch the event leaves; what it tests, no read
of an element touches. -/
theorem exec_eq_cdone
    (h : (i = .tmo ∧ s.eng = .recording) ∨ ((i = .copy ∨ i = .ok) ∧ buttonGate s = true ∧ inIdle s = false)) :
    ∃ l, ∀ u : State, u.eng = s.eng → u.arb = s.arb → u.btnie = s.btnie → u.latch = s.latch →
      exec i u = cdone { u with latch := l } := by
  obtain ⟨rfl, he⟩ | ⟨hi, hg, ha⟩ := h
  · exact ⟨s.latch, fun u heng _ _ hl => by rw [← hl]; exact if_pos (heng.trans he)⟩
  · refine ⟨.pressed, fun u _ harb hb hl => ?_⟩
    have hgate : buttonGate u = true := by rwa [buttonGate, hb, hl]
    have hidle : inIdle (press u) = false := by rwa [inIdle, press_arb, harb]
    have hcdone : ¬ inIdle (press u) = true := by simp [hidle]
    obtain rfl | rfl := hi
    · exact (onAccept_open hgate).trans (if_neg hcdone)
    · exact (onAccept_open hgate).trans (if_neg hcdone)

theorem freeSlot_bounds {c : Config} (hc : c.Ok) (q : Nat) :
    (freeSlot c q).m < c.nmodes ∧ (freeSlot c q).k < c.nkeys := by
  obtain ⟨-, -, -, hmodes, -, hkeys, -⟩ := hc
  exact ⟨Nat.mod_lt _ hmodes, Nat.mod_lt _ hkeys⟩

theorem freeCount_le_cap {c : Config} (hc : c.Ok) (q : Nat) : (freeCount c q).toNat ≤ c.cap := by
  obtain ⟨-, hcap, -⟩ := hc
  have hmod : Config.freeValue q % (c.cap + 1) < c.cap + 1 := Nat.mod_lt _ (Nat.succ_pos _)
  rw [freeCount, BitVec.toNat_ofNat, Nat.mod_eq_of_lt (by omega)]
  omega

theorem freeCursor_bounds {n : Word} (hn : 1 ≤ n.toNat) (q : Nat) :
    1 ≤ (freeCursor n q).toNat ∧ (freeCursor n q).toNat ≤ n.toNat := by
  have hmod : Config.freeValue q % n.toNat < n.toNat := Nat.mod_lt _ hn
  have hlt : n.toNat < 2 ^ 16 := n.isLt
  rw [freeCursor, BitVec.toNat_ofNat, Nat.mod_eq_of_lt (by omega)]
  omega

end FreeReads

/-- Two states from which an event is CDONE, and CDONE does the same: the event does the same. -/
theorem exec_congr_of_cdone {s s' p p' : State} {i : Instr} (h : exec i s = cdone p) (h' : exec i s' = cdone p')
    (hp : cdone p = cdone p') : exec i s = exec i s' :=
  h.trans (hp.trans h'.symm)

/-- Settles O48: each clause is the law of the one read at stake, under the event that makes it. -/
theorem noValueReadsAreFree : Obligations.NoValueReadsAreFree := by
  refine ⟨fun s cnt ha => ⟨execEdge_oldc_none ha, execEdge_ecnt_none ha, fun n ho hn hcap => ?_⟩, fun s i h => ?_,
    fun s he => ⟨execEnv_slot_none he, fun _ _ => execEnv_cur_none he⟩,
    fun c q hc => ⟨(freeSlot_bounds hc q).1, (freeSlot_bounds hc q).2, freeCount_le_cap hc q⟩,
    fun n q hn => freeCursor_bounds hn q⟩
  · obtain ⟨old, ho⟩ := Option.ne_none_iff_exists'.mp ho
    obtain hcap | ⟨hlt, hcap⟩ := hcap
    · refine ⟨fun hs => ?_, fun hs j hj hr hl => ?_⟩
      · exact exec_congr_of_cdone (execEdge_at_capacity ha ho hn hcap) (execEdge_at_capacity ha ho hn hcap)
          (cdone_slot_none hs)
      · obtain ⟨sl, hs⟩ := Option.ne_none_iff_exists'.mp hs
        exact exec_congr_of_cdone (execEdge_at_capacity ha ho hn hcap) (execEdge_at_capacity ha ho hn hcap)
          (cdone_rbuf_none hs hn hj hr hl)
    · refine ⟨fun hs => ?_, fun hs j hj hr hl => ?_⟩
      · exact exec_congr_of_cdone (execEdge_reaches_capacity ha ho hn hlt hcap)
          (execEdge_reaches_capacity ha ho hn hlt hcap) (cdone_slot_none hs)
      · obtain ⟨sl, hs⟩ := Option.ne_none_iff_exists'.mp hs
        have hkeep (l : Nat) (h : l < n.toNat) : (s.rbuf.set n.toNat (some (cnt - old)))[l]? = s.rbuf[l]? :=
          List.getElem?_set_ne (by omega)
        have hdone := cdone_rbuf_none
          (s := { s with rbuf := s.rbuf.set n.toNat (some (cnt - old)), ecnt := some (n + 1), oldc := some cnt })
          hs rfl (by omega) ((hkeep j hj).trans hr) fun l h => (hkeep l (by omega)).symm ▸ hl l h
        rw [List.set_comm _ _ (by omega : n.toNat ≠ j)] at hdone
        exact exec_congr_of_cdone (execEdge_reaches_capacity ha ho hn hlt hcap)
          (execEdge_reaches_capacity ha ho hn hlt hcap) hdone
  · obtain ⟨l, hc⟩ := exec_eq_cdone h
    refine ⟨fun hs => ?_, fun hs hn => ?_, fun hs n j hn hj hr hl => ?_⟩
    · exact exec_congr_of_cdone (hc _ rfl rfl rfl rfl) (hc _ rfl rfl rfl rfl) (cdone_slot_none hs)
    · obtain ⟨sl, hs⟩ := Option.ne_none_iff_exists'.mp hs
      exact exec_congr_of_cdone (hc _ rfl rfl rfl rfl) (hc _ rfl rfl rfl rfl) (cdone_ecnt_none hs hn)
    · obtain ⟨sl, hs⟩ := Option.ne_none_iff_exists'.mp hs
      exact exec_congr_of_cdone (hc _ rfl rfl rfl rfl) (hc _ rfl rfl rfl rfl) (cdone_rbuf_none hs hn hj hr hl)

end Sys2Proof.Machine

/-! ### No read without a value under the invariants (R56) -/

namespace Sys2Proof.Machine

/-- The register above the values of a buffer takes the next one. -/
theorem take_set_append {r : List (Option Word)} {vs : List Word} (d : Word) (h : r.take vs.length = vs.map some)
    (hl : vs.length < r.length) : (r.set vs.length (some d)).take (vs.length + 1) = (vs ++ [d]).map some := by
  rw [List.take_add_one, List.getElem?_set_self hl, List.take_set_of_le le_rfl, h]
  simp

section Recording

variable {s : State}

/-- A recording that meets the invariants holds its intervals, with room for `CAP` of them in the store. -/
theorem Invariant.holds (h : Invariant s) (he : s.eng = .recording) :
    ∃ sl n vs, Holds s sl n vs ∧ n.toNat < s.cfg.cap ∧ s.rbuf.length = s.cfg.cap ∧
      ∀ m, m ≤ s.cfg.cap → inStore s.cfg (psAddr s.cfg sl) (m + 1) = true := by
  obtain ⟨k, hk, hslot⟩ := (h.recording he).slot
  obtain ⟨n, vs, hn, hcap, hl, hb⟩ := (h.recording he).buffer
  have hroom (m : Nat) (hm : m ≤ s.cfg.cap) := inStore_psAddr (sl := ⟨s.mode, k⟩) h.params h.modeRange hk hm
  refine ⟨_, n, vs, ⟨hslot, hn, hl, ?_, hroom _ hcap.le⟩, hcap, ?_, hroom⟩
  · rw [hb, ← hl, List.take_left' (by simp)]
  · simp [hb, hl]
    omega

/-- One more edge below capacity: one more interval held. -/
theorem Holds.append {sl : SlotRef} {n cnt d : Word} {vs : List Word} (h : Holds s sl n vs)
    (hn : (n + 1).toNat = n.toNat + 1) (hlen : n.toNat < s.rbuf.length)
    (hroom : inStore s.cfg (psAddr s.cfg sl) (n.toNat + 1 + 1) = true) :
    Holds { s with rbuf := s.rbuf.set n.toNat (some d), ecnt := some (n + 1), oldc := some cnt } sl (n + 1) (vs ++ [d]) where
  slot := h.slot
  ecnt := rfl
  count := by rw [List.length_append, h.count, hn, List.length_singleton]
  buffer := by
    have hb := h.buffer
    rw [hn]
    rw [← h.count] at hb hlen ⊢
    exact take_set_append d hb hlen
  room := hn ▸ hroom

theorem CaptureEnds.readFaults {t : State} {sl : SlotRef} {n : Word} {vs : List Word}
    (h : CaptureEnds s sl n vs (.next t)) : t.readFaults = s.readFaults := by
  obtain ⟨m, -, e⟩ := h
  cases e
  rfl

theorem Holds.cdone_readFaults {t : State} {sl : SlotRef} {n : Word} {vs : List Word} (h : Holds s sl n vs)
    (hd : cdone s = .next t) : t.readFaults = s.readFaults :=
  (hd ▸ cdone_ends h : CaptureEnds s sl n vs (.next t)).readFaults

end Recording

section NoReport

variable {s t : State}

/-- Buttons are enabled outside `Idle` and `ModeDisplay` in a recording alone. -/
theorem Invariant.recording_of_buttonGate (h : Invariant s) (hg : buttonGate s = true) (ha : inIdle s = false) :
    s.eng = .recording := by
  obtain ⟨-, d⟩ | ⟨he, -⟩ | ⟨-, d⟩ := h.eng_cases
  · simp [inIdle_iff.mpr d.arb] at ha
  · exact he
  · simp [buttonGate, d.btnie] at hg

theorem ButtonNext.readFaults {i : Instr} (h : Invariant s) (hn : ButtonNext s i t) : t.readFaults = s.readFaults := by
  cases hn with
  | cancels hg _ ha hd =>
    obtain ⟨sl, n, vs, hh, -⟩ := h.holds (h.recording_of_buttonGate hg ha)
    exact Holds.cdone_readFaults (s := press s) ⟨hh.slot, hh.ecnt, hh.count, hh.buffer, hh.room⟩ hd
  | dropped _ | ignored _ _ _ | records _ _ _ | plays _ _ _ _ _ _ | noCode _ _ _ _ | toggles _ _ | leaves _ _ _
  | stays _ _ _ | advances _ _ => rfl

theorem execEdge_readFaults {cnt : Word} (h : Invariant s) (hx : execEdge cnt s = .next t) :
    t.readFaults = s.readFaults := by
  cases ha : s.caparm with
  | false =>
    rw [execEdge_unarmed ha] at hx
    cases hx
    rfl
  | true =>
    have he : s.eng = .recording := h.recording_iff_caparm.mpr ha
    obtain ⟨old, ho⟩ := (h.recording he).oldc
    obtain ⟨sl, n, vs, hh, hlt, hlen, hroom⟩ := h.holds he
    obtain ⟨-, hcap, -⟩ := h.params
    have hsucc : (n + 1).toNat = n.toNat + 1 := by bv_omega
    by_cases hfull : (n + 1).toNat = s.cfg.cap
    · rw [execEdge_reaches_capacity ha ho hh.ecnt hlt hfull] at hx
      exact (hh.append hsucc (by omega) (hroom _ hlt)).cdone_readFaults hx
    · rw [execEdge_below_capacity ha ho hh.ecnt hlt hfull] at hx
      cases hx
      rfl

theorem execTmo_readFaults (h : Invariant s) (hx : execTmo s = .next t) : t.readFaults = s.readFaults := by
  obtain ⟨he, hx⟩ | ⟨-, rfl⟩ := execTmo_next hx
  · obtain ⟨sl, n, vs, hh, -⟩ := h.holds he
    exact hh.cdone_readFaults hx
  · rfl

theorem execEnv_readFaults (h : Invariant s) (hx : execEnv s = .next t) : t.readFaults = s.readFaults := by
  cases he : s.enven with
  | false =>
    rw [execEnv_disabled he] at hx
    cases hx
    rfl
  | true =>
    obtain ⟨k, i, n, v, -, hslot, hcur, hlen, -⟩ := (h.playing (h.playing_iff_enven.mpr he)).cursor
    rw [execEnv_enabled he hslot hlen, readCur_some hcur] at hx
    split at hx
    · obtain ⟨w, -, hx⟩ := withRead_eq_next hx
      cases hx
      rfl
    · cases hx
      rfl

/-- From a state that meets the invariants no event reads an element that holds no value (R56). -/
theorem Invariant.exec_readFaults {i : Instr} (h : Invariant s) (hx : exec i s = .next t) :
    t.readFaults = s.readFaults := by
  cases i with
  | por => cases hx; rfl
  | settle => cases hx; rfl
  | sleep => obtain ⟨-, rfl⟩ | ⟨-, rfl⟩ := execSleep_next hx <;> rfl
  | edge cnt => exact execEdge_readFaults h hx
  | env => exact execEnv_readFaults h hx
  | tmo => exact execTmo_readFaults h hx
  | key k => exact (execKey_next hx).readFaults h
  | copy => exact (execCopy_next hx).readFaults h
  | ok => exact (execOk_next hx).readFaults h
  | mode => exact (execMode_next hx).readFaults h

/-- The invariants say nothing of the events still to come. -/
theorem Invariant.with_stream (h : Invariant s) (es : List EventWord) : Invariant { s with stream := es } where
  params := h.params
  modeRange := h.modeRange
  storeWf := h.storeWf
  slots m k hm hk := (slotOk_congr rfl rfl).trans (h.slots m k hm hk)
  idle he := { h.idle he with }
  recording he := { h.recording he with }
  playing he := { h.playing he with }
  locked := h.locked
  awakeDisplay := h.awakeDisplay

end NoReport

/-- Settles O50: the reset state has reported nothing, a step is an event from a state that still meets the invariants, and
any event only adds to the faults. -/
theorem noRunReadsAnElementWithoutValue : Obligations.NoRunReadsAnElementWithoutValue := by
  refine ⟨rfl, fun s t h hx => ?_, fun s t i => exec_reports⟩
  obtain ⟨w, rest, i, -, -, hx⟩ := step_next hx
  exact (h.with_stream rest).exec_readFaults hx

end Sys2Proof.Machine

/-! ### Slots in the store: where their records lie, what a read answers (20_memory R63, R64, R66) -/

namespace Sys2Proof.Machine

/-- Settles O12: both branches of `MemWrite`. -/
theorem lockedStoreRefusesWrites : Obligations.LockedStoreRefusesWrites :=
  fun _ _ _ => ⟨fun hlocked => if_pos hlocked, memWrite_of_room⟩

section Slots

variable {c : Config} {sl sl' : SlotRef}

/-- Different slots have different indices, keys being the low digit of the index (R63, D8). -/
theorem slotIndex_inj (hk : sl.k < c.nkeys) (hk' : sl'.k < c.nkeys) (h : slotIndex c sl = slotIndex c sl') :
    sl = sl' := by
  obtain ⟨m, k⟩ := sl
  obtain ⟨m', k'⟩ := sl'
  have hkey : k = k' := by
    simpa [slotIndex, Nat.mod_eq_of_lt hk, Nat.mod_eq_of_lt hk'] using congrArg (· % c.nkeys) h
  have hmul : m * c.nkeys = m' * c.nkeys := Nat.add_right_cancel (hkey ▸ h)
  rw [hkey, Nat.eq_of_mul_eq_mul_right (Nat.zero_lt_of_lt hk) hmul]

/-- The stride of a slot ends before the address of any slot of a higher index (R63). -/
theorem psAddr_add_stride_le_psAddr (h : slotIndex c sl < slotIndex c sl') :
    psAddr c sl + c.psStride ≤ psAddr c sl' := by
  have hmul : (slotIndex c sl + 1) * c.psStride ≤ slotIndex c sl' * c.psStride := Nat.mul_le_mul_right _ h
  rw [Nat.succ_mul] at hmul
  unfold psAddr
  omega

/-- Settles O10: a record is shorter than its stride, and of two slots one has the lower index. -/
theorem slotRecordsNeverOverlap : Obligations.SlotRecordsNeverOverlap := by
  intro c ⟨_, _, hstride, _⟩ sl hm hk
  refine ⟨rfl, by omega, psAddr_add_stride_le hm hk, fun sl' _ hk' hne => ?_⟩
  obtain hlt | hgt := Nat.lt_or_gt_of_ne (mt (slotIndex_inj hk hk') hne)
  · have := psAddr_add_stride_le_psAddr hlt
    exact .inl (by omega)
  · have := psAddr_add_stride_le_psAddr hgt
    exact .inr (by omega)

end Slots

/-- Units that can each be read alone can be read as one run (R13). -/
theorem memRead_of_memReadUnit {s : State} {a : Nat} {vs : List Word} (hpos : 0 < vs.length)
    (h : ∀ i (hi : i < vs.length), memReadUnit s (a + i) = .ok vs[i]) : memRead s a vs.length = .ok vs := by
  have hfirst := inStore_iff.mp (memReadUnit_ok.mp (h 0 hpos)).1
  have hlast := inStore_iff.mp (memReadUnit_ok.mp (h (vs.length - 1) (by omega))).1
  exact memRead_of_read (inStore_iff.mpr ⟨hfirst.1, by omega⟩) fun i hi => (memReadUnit_ok.mp (h i hi)).2

/-- Settles O13: the two answers of `read`, the second by reading the interval units as one run. -/
theorem slotReadReturnsItsIntervals : Obligations.SlotReadReturnsItsIntervals := by
  refine fun s sl => ⟨fun hzero => by simp [psRead, hzero], fun n vs hlen hne hcount hivl => ?_⟩
  have hpos : 0 < n.toNat := Nat.pos_of_ne_zero fun h => hne (BitVec.eq_of_toNat_eq h)
  have hrun : memRead s (psAddr s.cfg sl + 1) n.toNat = .ok vs :=
    hcount ▸ memRead_of_memReadUnit (hcount ▸ hpos) hivl
  simpa [psRead, hlen, hrun] using hne

end Sys2Proof.Machine

/-! ### What an event does to the store (20_memory R60, R67) -/

namespace Sys2Proof.Machine

/-! #### The slot write -/

section SlotWrite

variable {c : Config} {m m' : Memory} {sl : SlotRef} {n : Word} {vs : List Word}

theorem SlotWritten.read_psAddr (h : SlotWritten c m m' sl n vs) : m'.read c (psAddr c sl) = some n :=
  (h _).trans (if_pos rfl)

/-- A unit that a slot write changed is the slot's length unit or one of its intervals' (R67). -/
theorem SlotWritten.mem_record_of_ne {a : Nat} (h : SlotWritten c m m' sl n vs)
    (hne : m'.read c a ≠ m.read c a) : psAddr c sl ≤ a ∧ a ≤ psAddr c sl + vs.length := by
  by_contra hout
  have hframe := h a
  rw [if_neg (by omega), if_neg (by omega)] at hframe
  exact hne hframe

end SlotWrite

/-- `t` is where CDONE takes the recording that `s` is in: the recorded slot is written, the engine is `Idle` (R106). -/
def EndsRecording (s t : State) : Prop :=
  s.eng = .recording ∧ t.eng = .idle ∧ ∃ sl n vs, s.slot = some sl ∧ vs.length = n.toNat ∧
    inStore s.cfg (psAddr s.cfg sl) (n.toNat + 1) = true ∧ SlotWritten s.cfg s.ps t.ps sl n vs

section StoreNext

variable {s t : State}

theorem Holds.endsRecording {sl : SlotRef} {n : Word} {vs : List Word} (h : Holds s sl n vs)
    (he : s.eng = .recording) (hd : cdone s = .next t) : EndsRecording s t := by
  obtain ⟨m, hm, e⟩ : CaptureEnds s sl n vs (.next t) := hd ▸ cdone_ends h
  cases e
  exact ⟨he, rfl, sl, n, vs, h.slot, h.count, h.room, hm⟩

theorem Holds.press {sl : SlotRef} {n : Word} {vs : List Word} (h : Holds s sl n vs) : Holds (press s) sl n vs :=
  ⟨h.slot, h.ecnt, h.count, h.buffer, h.room⟩

/-! #### The events that can end an engine, under the invariants -/

/-- Everything EDGE does under the invariants: nothing while the capture channel is not armed; else it takes the interval
into the recording, and completes the recording with the `CAP`-th (R103). -/
theorem Invariant.execEdge_next {cnt : Word} (h : Invariant s) (hx : execEdge cnt s = .next t) :
    (s.caparm = false ∧ t = s) ∨
    ∃ u sl n old vs, s.eng = .recording ∧ s.oldc = some old ∧ Holds s sl n vs ∧
      u = { s with rbuf := s.rbuf.set n.toNat (some (cnt - old)), ecnt := some (n + 1), oldc := some cnt } ∧
      Holds u sl (n + 1) (vs ++ [cnt - old]) ∧
      (((n + 1).toNat < s.cfg.cap ∧ t = u) ∨ ((n + 1).toNat = s.cfg.cap ∧ cdone u = .next t)) := by
  by_cases ha : s.caparm = true
  case neg =>
    rw [Bool.not_eq_true] at ha
    rw [execEdge_unarmed ha] at hx
    cases hx
    exact .inl ⟨ha, rfl⟩
  case pos =>
    have he : s.eng = .recording := h.recording_iff_caparm.mpr ha
    obtain ⟨old, ho⟩ := (h.recording he).oldc
    obtain ⟨sl, n, vs, hh, hlt, hlen, hroom⟩ := h.holds he
    obtain ⟨-, hcap, -⟩ := h.params
    have hsucc : (n + 1).toNat = n.toNat + 1 := by bv_omega
    refine .inr ⟨_, sl, n, old, vs, he, ho, hh, rfl, hh.append hsucc (by omega) (hroom _ hlt), ?_⟩
    by_cases hfull : (n + 1).toNat = s.cfg.cap
    · rw [execEdge_reaches_capacity ha ho hh.ecnt hlt hfull] at hx
      exact .inr ⟨hfull, hx⟩
    · rw [execEdge_below_capacity ha ho hh.ecnt hlt hfull] at hx
      cases hx
      exact .inl ⟨by omega, rfl⟩

/-- Everything ENV does under the invariants: nothing while the envelope channel is off; else it loads the cursor's period,
or completes the playback past the slot's last one (R123). -/
theorem Invariant.execEnv_next (h : Invariant s) (hx : execEnv s = .next t) :
    (s.enven = false ∧ t = s) ∨
    ∃ sl i n, s.eng = .playing ∧ s.slot = some sl ∧ s.cur = some i ∧ psLen s sl = .ok n ∧
      ((i.toNat < n.toNat ∧ ∃ v, psIvl s sl i.toNat = .ok v ∧ t = loadPeriod v i s) ∨
        (i.toNat = n.toNat ∧ t = pdone s)) := by
  cases he : s.enven with
  | false =>
    rw [execEnv_disabled he] at hx
    cases hx
    exact .inl ⟨rfl, rfl⟩
  | true =>
    have heng : s.eng = .playing := h.playing_iff_enven.mpr he
    obtain ⟨k, i, n, -, -, hslot, hcur, hlen, -, hi, -⟩ := (h.playing heng).cursor
    refine .inr ⟨_, i, n, heng, hslot, hcur, hlen, ?_⟩
    rw [execEnv_enabled he hslot hlen, readCur_some hcur] at hx
    split at hx
    case isTrue hlt =>
      obtain ⟨v, hv, hx⟩ := withRead_eq_next hx
      cases hx
      exact .inl ⟨hlt, v, hv, rfl⟩
    case isFalse hge =>
      cases hx
      exact .inr ⟨by omega, rfl⟩

/-! #### The store keeps its content or takes a recording -/

theorem execEdge_store {cnt : Word} (h : Invariant s) (hx : execEdge cnt s = .next t) :
    t.ps = s.ps ∨ EndsRecording s t := by
  obtain ⟨-, rfl⟩ | ⟨u, sl, n, old, vs, he, -, -, rfl, hu, ⟨-, rfl⟩ | ⟨-, hd⟩⟩ := h.execEdge_next hx
  · exact .inl rfl
  · exact .inl rfl
  · exact .inr (hu.endsRecording he hd)

theorem execEnv_ps (h : Invariant s) (hx : execEnv s = .next t) : t.ps = s.ps := by
  obtain ⟨-, rfl⟩ | ⟨sl, i, n, -, -, -, -, ⟨-, v, -, rfl⟩ | ⟨-, rfl⟩⟩ := h.execEnv_next hx <;> rfl

theorem execTmo_store (h : Invariant s) (hx : execTmo s = .next t) : t.ps = s.ps ∨ EndsRecording s t := by
  obtain ⟨he, hd⟩ | ⟨-, rfl⟩ := execTmo_next hx
  · obtain ⟨sl, n, vs, hh, -⟩ := h.holds he
    exact .inr (hh.endsRecording he hd)
  · exact .inl rfl

theorem ButtonNext.store {i : Instr} (h : Invariant s) (hn : ButtonNext s i t) : t.ps = s.ps ∨ EndsRecording s t := by
  cases hn with
  | cancels hg _ ha hd =>
    have he := h.recording_of_buttonGate hg ha
    obtain ⟨sl, n, vs, hh, -⟩ := h.holds he
    exact .inr (hh.press.endsRecording he hd)
  | dropped _ | ignored _ _ _ | records _ _ _ | plays _ _ _ _ _ _ | noCode _ _ _ _ | toggles _ _ | leaves _ _ _
  | stays _ _ _ | advances _ _ => exact .inl rfl

/-- From a state that meets the invariants, an event other than POR that changes the store ends a recording, and POR leaves
the store (R60, R67, R161). -/
theorem Invariant.exec_store {i : Instr} (h : Invariant s) (hx : exec i s = .next t) :
    t.ps = s.ps ∨ (i ≠ .por ∧ EndsRecording s t) := by
  cases i with
  | por => cases hx; exact .inl rfl
  | settle => cases hx; exact .inl rfl
  | sleep => obtain ⟨-, rfl⟩ | ⟨-, rfl⟩ := execSleep_next hx <;> exact .inl rfl
  | env => exact .inl (execEnv_ps h hx)
  | edge cnt => exact (execEdge_store h hx).imp_right (⟨nofun, ·⟩)
  | tmo => exact (execTmo_store h hx).imp_right (⟨nofun, ·⟩)
  | key k => exact ((execKey_next hx).store h).imp_right (⟨nofun, ·⟩)
  | copy => exact ((execCopy_next hx).store h).imp_right (⟨nofun, ·⟩)
  | ok => exact ((execOk_next hx).store h).imp_right (⟨nofun, ·⟩)
  | mode => exact ((execMode_next hx).store h).imp_right (⟨nofun, ·⟩)

end StoreNext

/-- Settles O42: an event that changes a unit ended a recording, and the recorded slot's write changed that unit. -/
theorem storeChangesOnlyAtCompletion : Obligations.StoreChangesOnlyAtCompletion := by
  intro s t i h hx a hne
  have hcfg : t.cfg = s.cfg := (eventsKeepParametersAndStream s t i hx).1
  rw [hcfg] at hne
  obtain hps | ⟨hi, he, hidle, sl, n, vs, hslot, hcount, hroom, hw⟩ := h.exec_store hx
  · exact absurd (by rw [hps]) hne
  · have hlen : psLen t sl = .ok n := by
      have hunit : inStore s.cfg (psAddr s.cfg sl) 1 = true := by
        rw [inStore_iff] at hroom ⊢
        omega
      rw [psLen, memReadUnit_ok, hcfg]
      exact ⟨hunit, hw.read_psAddr⟩
    exact ⟨⟨hi, by simp [he], hidle⟩, he, sl, n, hslot, hlen, hcount ▸ hw.mem_record_of_ne hne⟩

end Sys2Proof.Machine

/-! ### The event encoding: decoder, encoder and rows agree (30_encoding R80, R83, R88) -/

namespace Sys2Proof.Machine

/-- The events without an operand (R81), the ones that `decodePlain` and `readPlain` answer. -/
def IsPlain : Instr → Prop
  | .edge _ | .key _ => False
  | _ => True

section Plain

variable {i : Instr}

theorem operandOf_of_isPlain (h : IsPlain i) : operandOf i = 0 := by
  cases i with
  | edge _ | key _ => exact h.elim
  | _ => rfl

theorem wellFormed_of_isPlain (c : Config) (h : IsPlain i) : WellFormed c i := by
  cases i with
  | edge _ | key _ => exact h.elim
  | _ => rfl

end Plain

section Words

variable {c : Config} {w : EventWord} {i : Instr} {r : DecodeReject}

/-- A word whose field `zero` is 0 is the word of its other two fields (R80). -/
theorem eventWord_opField_immField (h : zeroField w = 0) : eventWord (opField w) (immField w) = w := by
  apply BitVec.eq_of_getLsbD_eq
  intro j hj
  rw [Laws.getLsbD_eventWord]
  split
  · simp [immField, *]
  · split
    · have hbit : (zeroField w).getLsbD (j - 16) = false := by simp [h]
      simpa [zeroField, show j - 16 < 8 by omega, show 16 + (j - 16) = j by omega] using hbit.symm
    · simp [opField, show j - 24 < 8 by omega, show 24 + (j - 24) = j by omega]

@[simp] theorem opField_encode (i : Instr) : opField (encode i) = opcodeOf i := Laws.opField_eventWord ..
@[simp] theorem zeroField_encode (i : Instr) : zeroField (encode i) = 0 := Laws.zeroField_eventWord ..
@[simp] theorem immField_encode (i : Instr) : immField (encode i) = operandOf i := Laws.immField_eventWord ..

/-- A word is the encoder's word of an event exactly where its three fields are the event's. -/
theorem encode_eq_iff : encode i = w ↔ opField w = opcodeOf i ∧ zeroField w = 0 ∧ immField w = operandOf i := by
  constructor
  · rintro rfl
    simp
  · rintro ⟨hop, hzero, himm⟩
    rw [encode, ← hop, ← himm, eventWord_opField_immField hzero]

/-- What an answer of the decoder claims about the word: that it is a well-formed event's word, or that it has the defect. -/
def AnswerHolds (c : Config) (w : EventWord) : Except DecodeReject Instr → Prop
  | .ok i => WellFormed c i ∧ encode i = w
  | .error r => Defect c w r

theorem decodeWithOperand_holds {f : Word → Except DecodeReject Instr}
    (h : zeroField w = 0 → AnswerHolds c w (f (immField w))) : AnswerHolds c w (decodeWithOperand w f) := by
  unfold decodeWithOperand
  split
  · exact h ‹_›
  · exact ‹_›

theorem nonzeroOperand_of_isPlain (hi : IsPlain i) (hop : opField w = opcodeOf i) (himm : immField w ≠ 0) :
    Defect c w .nonzeroOperand := by
  refine ⟨?_, himm⟩
  rw [hop]
  cases i with
  | edge _ | key _ => exact hi.elim
  | _ => decide

theorem decodePlain_holds (hi : IsPlain i) (hop : opField w = opcodeOf i) : AnswerHolds c w (decodePlain w i) := by
  refine decodeWithOperand_holds fun hzero => ?_
  split
  · exact ⟨wellFormed_of_isPlain c hi, encode_eq_iff.mpr ⟨hop, hzero, by simpa [operandOf_of_isPlain hi]⟩⟩
  · exact nonzeroOperand_of_isPlain (c := c) hi hop ‹_›

/-- Every answer of the decoder holds of the word, row by row. -/
theorem decode_holds (c : Config) (w : EventWord) : AnswerHolds c w (decode c w) := by
  unfold decode
  split
  case h_2 h =>
    exact decodeWithOperand_holds fun hzero => ⟨rfl, encode_eq_iff.mpr ⟨BitVec.eq_of_toNat_eq h, hzero, rfl⟩⟩
  case h_4 h =>
    have hop : opField w = 0x04 := BitVec.eq_of_toNat_eq h
    refine decodeWithOperand_holds fun hzero => ?_
    split
    · exact ⟨decide_eq_true ‹_›, encode_eq_iff.mpr ⟨hop, hzero, rfl⟩⟩
    · exact ⟨hop, Nat.le_of_not_lt ‹_›⟩
  case h_11 =>
    show opField w = 0#8 ∨ 0x0B ≤ (opField w).toNat
    rw [← BitVec.toNat_inj, BitVec.toNat_zero]
    simp only [imp_false] at *
    omega
  all_goals exact decodePlain_holds trivial (BitVec.eq_of_toNat_eq ‹_›)

/-- Settles O2: in each row the word's fields pass the row's tests. -/
theorem decodeOfEncodeIsTheEvent : Obligations.DecodeOfEncodeIsTheEvent := by
  intro c i h
  cases i with
  | edge cnt => simp [decode, decodeWithOperand, opcodeOf, operandOf]
  | key k => simpa [decode, decodeWithOperand, opcodeOf, operandOf, WellFormed, wellFormed] using h
  | _ => rfl

/-- Settles O3: the decoder's answer holds. -/
theorem encodeOfDecodeIsTheWord : Obligations.EncodeOfDecodeIsTheWord := by
  intro c w i h
  have hholds := decode_holds c w
  rwa [h] at hholds

/-- The decoder answers an event for its one word, and only under its operand constraint. -/
theorem decode_eq_ok_iff : decode c w = .ok i ↔ WellFormed c i ∧ encode i = w :=
  ⟨encodeOfDecodeIsTheWord c w i, fun ⟨hi, hw⟩ => hw ▸ decodeOfEncodeIsTheEvent c i hi⟩

/-- Every row's mask keeps the opcode and the field `zero` (R83). -/
theorem opField_and_rowMask : opField (w &&& rowMask i) = opField w := by
  have hmask : opField (rowMask i) = BitVec.allOnes 8 := by cases i <;> simp [opField, rowMask]
  rw [opField, BitVec.extractLsb'_and, ← opField, ← opField, hmask, BitVec.and_allOnes]

theorem zeroField_and_rowMask : zeroField (w &&& rowMask i) = zeroField w := by
  have hmask : zeroField (rowMask i) = BitVec.allOnes 8 := by cases i <;> simp [zeroField, rowMask]
  rw [zeroField, BitVec.extractLsb'_and, ← zeroField, ← zeroField, hmask, BitVec.and_allOnes]

/-- The encoder's word lies in its event's row (R83). -/
theorem encode_and_rowMask (i : Instr) : encode i &&& rowMask i = rowMatch i := by
  cases i with
  | edge cnt => exact (Laws.RowOfWord.edge cnt).1
  | key k => exact (Laws.RowOfWord.key k).1
  | _ => rfl

/-- The match/mask test with the operand picks out the encoder's word (R83). -/
theorem row_matches_iff : w &&& rowMask i = rowMatch i ∧ immField w = operandOf i ↔ encode i = w := by
  constructor
  · rintro ⟨hrow, himm⟩
    rw [← encode_and_rowMask] at hrow
    refine encode_eq_iff.mpr ⟨?_, ?_, himm⟩
    · rw [← opField_and_rowMask, hrow, opField_and_rowMask, opField_encode]
    · rw [← zeroField_and_rowMask, hrow, zeroField_and_rowMask, zeroField_encode]
  · rintro rfl
    exact ⟨encode_and_rowMask i, immField_encode i⟩

/-- Settles O4: both sides say that the word is the encoder's word of the event and the constraint holds. -/
theorem wordIsEventIffRowMatches : Obligations.WordIsEventIffRowMatches := by
  intro c w i
  rw [decode_eq_ok_iff, ← row_matches_iff, and_comm, and_assoc]

/-- The word of a well-formed event has none of the defects of R88. -/
theorem not_defect_encode (hi : WellFormed c i) : ¬ Defect c (encode i) r := by
  cases r with
  | reservedOpcode => cases i <;> simp [Defect, opcodeOf]
  | nonzeroReservedBits => simp [Defect]
  | nonzeroOperand => cases i <;> simp [Defect, opcodeOf, operandOf]
  | keyOutOfRange =>
    cases i with
    | key k => simpa [Defect, opcodeOf, operandOf, WellFormed, wellFormed] using hi
    | _ => simp [Defect, opcodeOf]

/-- Settles O5: a refusal holds of the word, an event's word has no defect, and the step answers the decoder's refusal. -/
theorem malformedWordHasNoStep : Obligations.MalformedWordHasNoStep := by
  refine ⟨fun c w r h => ?_, fun c w r hdef => ?_, fun s w rest r hs h => ?_⟩
  · have hholds := decode_holds c w
    rwa [h] at hholds
  · cases h : decode c w with
    | error r' => exact ⟨r', rfl⟩
    | ok i =>
      obtain ⟨hi, rfl⟩ := decode_eq_ok_iff.mp h
      exact absurd hdef (not_defect_encode hi)
  · simp [step, fetchWord_cons hs, h]

end Words

end Sys2Proof.Machine

/-! ### The text of an event stream (30_encoding R85, R86, R87) -/

namespace Sys2Proof.Machine

/-! #### Pseudo-events -/

theorem length_pseudoEdgesFrom (c : Word) (ds : List Word) : (pseudoEdgesFrom c ds).length = ds.length := by
  induction ds generalizing c with
  | nil => rfl
  | cons d ds ih => simp [pseudoEdgesFrom, ih]

/-- From a running count, each event of `EDGES` stands at the count plus the deltas so far. -/
theorem getElem?_pseudoEdgesFrom (c : Word) {ds : List Word} {j : Nat} (hj : j < ds.length) :
    (pseudoEdgesFrom c ds)[j]? = some (.edge ((ds.take (j + 1)).foldl (fun c d => c + d) c)) := by
  induction ds generalizing c j with
  | nil => cases hj
  | cons d ds ih =>
    cases j with
    | zero => simp [pseudoEdgesFrom]
    | succ j => simpa [pseudoEdgesFrom] using ih (c + d) (Nat.lt_of_succ_lt_succ hj)

/-- Settles O9: the laws of `EDGES` from the count 0; `PRESS` by definition. -/
theorem pseudoEventsExpand : Obligations.PseudoEventsExpand :=
  ⟨length_pseudoEdgesFrom 0, fun _ _ => getElem?_pseudoEdgesFrom 0, fun _ => rfl⟩

/-! #### Decimal operands -/

theorem digitValue_digit : ∀ d < 10, digitValue 10 (Char.ofNat (48 + d)) = some d := by decide

theorem isDigit_digit : ∀ d < 10, (Char.ofNat (48 + d)).isDigit = true := by decide

/-- Reading the digits of `n` carries `n` on to what stands after them. -/
theorem readDigits_decimalChars {fuel n : Nat} (acc : List Char) (h : n < 10 ^ fuel) :
    readDigits 10 0 (decimalChars fuel n acc) = readDigits 10 n acc := by
  induction fuel generalizing n acc with
  | zero =>
    obtain rfl : n = 0 := by simpa using h
    rfl
  | succ fuel ih =>
    unfold decimalChars
    split
    · simp [readDigits, digitValue_digit n ‹_›]
    · rw [ih _ (by omega), readDigits, digitValue_digit _ (Nat.mod_lt n (by decide))]
      simp only [Nat.div_add_mod']

theorem isDigit_of_mem_decimalChars {fuel n : Nat} {acc : List Char} (hacc : ∀ ch ∈ acc, ch.isDigit = true) :
    ∀ ch ∈ decimalChars fuel n acc, ch.isDigit = true := by
  induction fuel generalizing n acc with
  | zero => exact hacc
  | succ fuel ih =>
    unfold decimalChars
    split
    · exact List.forall_mem_cons.mpr ⟨isDigit_digit n ‹_›, hacc⟩
    · exact ih (List.forall_mem_cons.mpr ⟨isDigit_digit _ (Nat.mod_lt n (by decide)), hacc⟩)

theorem decimalChars_ne_nil {fuel n : Nat} {acc : List Char} (h : fuel ≠ 0 ∨ acc ≠ []) :
    decimalChars fuel n acc ≠ [] := by
  induction fuel generalizing n acc with
  | zero => simpa [decimalChars] using h
  | succ fuel ih =>
    unfold decimalChars
    split
    · exact List.cons_ne_nil _ _
    · exact ih (.inr (List.cons_ne_nil _ _))

/-- Digits are read in decimal: they hold no `x`. -/
theorem readNumber_of_isDigit {cs : List Char} (hne : cs ≠ []) (h : ∀ ch ∈ cs, ch.isDigit = true) :
    readNumber cs = readDigits 10 0 cs := by
  unfold readNumber
  split
  · exact absurd rfl hne
  · exact absurd (h 'x' (by simp)) (by decide)
  · exact absurd (h 'x' (by simp)) (by decide)
  · rfl

/-- The operand as the disassembler prints it, without the space. -/
def operandWord (v : Word) : List Char := decimalChars 5 v.toNat []

theorem operandChars_eq (v : Word) : operandChars v = ' ' :: operandWord v := rfl

theorem isDigit_of_mem_operandWord {v : Word} : ∀ ch ∈ operandWord v, ch.isDigit = true :=
  isDigit_of_mem_decimalChars (by simp)

theorem operandWord_ne_nil {v : Word} : operandWord v ≠ [] := decimalChars_ne_nil (.inl (by decide))

/-- A printed operand reads as itself (R86). -/
theorem readOperand_operandWord (v : Word) : readOperand (operandWord v) = some v := by
  have hread : readNumber (operandWord v) = some v.toNat :=
    calc readNumber (operandWord v)
      _ = readDigits 10 0 (operandWord v) := readNumber_of_isDigit operandWord_ne_nil isDigit_of_mem_operandWord
      _ = readDigits 10 v.toNat [] := readDigits_decimalChars [] (by omega)
      _ = some v.toNat := rfl
  simp [readOperand, hread, v.isLt]

/-! #### The words of a printed line -/

/-- A character that is part of a word of a line: it neither separates words nor begins a comment. -/
def IsWordChar (ch : Char) : Prop := ch ≠ ' ' ∧ ch ≠ ',' ∧ ch ≠ ';'

theorem isWordChar_of_isDigit {ch : Char} (h : ch.isDigit = true) : IsWordChar ch := by
  refine ⟨?_, ?_, ?_⟩ <;> rintro rfl <;> exact absurd h (by decide)

theorem isWordChar_of_mem_operandWord {v : Word} : ∀ ch ∈ operandWord v, IsWordChar ch :=
  fun ch h => isWordChar_of_isDigit (isDigit_of_mem_operandWord ch h)

theorem isWordChar_of_mem_mnemonicChars (i : Instr) : ∀ ch ∈ mnemonicChars i, IsWordChar ch := by
  cases i <;> simp [mnemonicChars, IsWordChar]

theorem mnemonicChars_ne_nil (i : Instr) : mnemonicChars i ≠ [] := by cases i <;> exact List.cons_ne_nil _ _

theorem stripComment_of_not_mem {cs : List Char} (h : ';' ∉ cs) : stripComment cs = cs := by
  induction cs with
  | nil => rfl
  | cons ch cs ih =>
    obtain ⟨hch, hcs⟩ := not_or.mp (mt List.mem_cons.mpr h)
    rw [stripComment, if_neg (Ne.symm hch), ih hcs]

/-- Word characters are collected, last first. -/
theorem splitWords_append {w : List Char} (cs acc : List Char) (h : ∀ ch ∈ w, IsWordChar ch) :
    splitWords (w ++ cs) acc = splitWords cs (w.reverse ++ acc) := by
  induction w generalizing acc with
  | nil => rfl
  | cons ch w ih =>
    obtain ⟨⟨hspace, hcomma, -⟩, hw⟩ := List.forall_mem_cons.mp h
    simp [splitWords, hspace, hcomma, ih _ hw]

theorem splitWords_word {w : List Char} (hne : w ≠ []) (hw : ∀ ch ∈ w, IsWordChar ch) : splitWords w [] = [w] := by
  have h := splitWords_append [] [] hw
  rw [List.append_nil, List.append_nil] at h
  rw [h, splitWords, List.reverse_reverse]
  exact mt List.reverse_eq_nil_iff.mp hne

theorem splitWords_word_space {w : List Char} (cs : List Char) (hne : w ≠ []) (hw : ∀ ch ∈ w, IsWordChar ch) :
    splitWords (w ++ ' ' :: cs) [] = w :: splitWords cs [] := by
  simp [splitWords_append _ _ hw, splitWords, hne]

theorem stripComment_operandLine (i : Instr) (v : Word) :
    stripComment (mnemonicChars i ++ operandChars v) = mnemonicChars i ++ operandChars v := by
  have hsemi : ¬ IsWordChar ';' := by simp [IsWordChar]
  apply stripComment_of_not_mem
  rw [operandChars_eq, List.mem_append, List.mem_cons]
  rintro (h | h | h)
  · exact hsemi (isWordChar_of_mem_mnemonicChars i _ h)
  · exact absurd h (by decide)
  · exact hsemi (isWordChar_of_mem_operandWord _ h)

/-- A mnemonic and a printed operand are the two words of their line. -/
theorem splitWords_operandLine (i : Instr) (v : Word) :
    splitWords (stripComment (mnemonicChars i ++ operandChars v)) [] = [mnemonicChars i, operandWord v] := by
  rw [stripComment_operandLine, operandChars_eq,
    splitWords_word_space _ (mnemonicChars_ne_nil i) (isWordChar_of_mem_mnemonicChars i),
    splitWords_word operandWord_ne_nil isWordChar_of_mem_operandWord]

/-- A line of a mnemonic and an operand is read as one event: no mnemonic is a pseudo-event's (R86, R87). -/
theorem readLine_operandLine {c : Config} {i j : Instr} {v : Word}
    (h : readEvent c [mnemonicChars i, operandWord v] = .ok j) :
    readLine c (mnemonicChars i ++ operandChars v) = .ok [j] := by
  have hpress : mnemonicChars i ≠ ['P', 'R', 'E', 'S', 'S'] := by cases i <;> simp [mnemonicChars]
  have hedges : mnemonicChars i ≠ ['E', 'D', 'G', 'E', 'S'] := by cases i <;> simp [mnemonicChars]
  simp [readLine, splitWords_operandLine, hpress, hedges, h]

/-- The line of an event reads as the event (R86). -/
theorem readLine_disassemble {c : Config} {i : Instr} (hi : WellFormed c i) : readLine c (disassemble i) = .ok [i] := by
  cases i with
  | edge cnt => exact readLine_operandLine (by simp [readEvent, mnemonicChars, readOperand_operandWord])
  | key k =>
    have hk : k.toNat < c.nkeys := of_decide_eq_true hi
    exact readLine_operandLine (by simp [readEvent, mnemonicChars, readOperand_operandWord, hk])
  | _ => rfl

/-- Settles O8: the line reads as the one event, and the assembler gives its word. -/
theorem assembledDisassemblyIsTheWord : Obligations.AssembledDisassemblyIsTheWord := by
  intro c i hi
  simp [assembleLine, readLine_disassemble hi]

end Sys2Proof.Machine

/-! ### EDGE and TMO against the capture rule (40_capture R102, R103, R104, R106) -/

namespace Sys2Proof.Machine

/-- Above capacity the guards of EDGE leave the write of `OLDC` alone (R103, D5). -/
theorem execEdge_above_capacity {s : State} {cnt old n : Word} (ha : s.caparm = true) (ho : s.oldc = some old)
    (hn : s.ecnt = some n) (h : s.cfg.cap < n.toNat) : execEdge cnt s = .next { s with oldc := some cnt } := by
  rw [execEdge_armed ha ho hn, appendDelta_full (by omega), edgeFinish_off_capacity hn (by omega)]

/-- Settles O26: EDGE below, reaching, at and above capacity, the two completions by what CDONE does with what is held. -/
theorem edgeFollowsTheCaptureRule : Obligations.EdgeFollowsTheCaptureRule := by
  refine fun s cnt => ⟨execEdge_unarmed, fun old n ha ho hn => ⟨execEdge_below_capacity ha ho hn, ?reaches, ?full,
    execEdge_above_capacity ha ho hn⟩⟩
  case reaches =>
    intro hlt hfull hlen sl vs hs hcount hbuf hroom
    have hsucc : (n + 1).toNat = n.toNat + 1 := by bv_omega
    have hroom' : inStore s.cfg (psAddr s.cfg sl) (n.toNat + 1 + 1) = true := by rwa [← hsucc, hfull]
    have hunits : inStore s.cfg (psAddr s.cfg sl) (n.toNat + 1) = true := by
      rw [inStore_iff] at hroom' ⊢
      omega
    have hholds : Holds s sl n vs := ⟨hs, hn, hcount, hbuf, hunits⟩
    have hedge : exec (.edge cnt) s = cdone _ := execEdge_reaches_capacity ha ho hn hlt hfull
    rw [hedge]
    exact cdone_ends (hholds.append hsucc hlen hroom')
  case full =>
    intro hcap sl vs hh
    have hedge : exec (.edge cnt) s = cdone _ := execEdge_at_capacity ha ho hn hcap
    rw [hedge]
    exact cdone_ends ⟨hh.slot, hh.ecnt, hh.count, hh.buffer, hh.room⟩

/-- Settles O27: TMO is CDONE in a recording, and nothing else. -/
theorem tmoStopsTheRecording : Obligations.TmoStopsTheRecording := by
  refine fun s => ⟨fun he => if_neg he, fun he sl n vs hh => ?_⟩
  have htmo : exec .tmo s = cdone s := if_pos he
  exact htmo ▸ cdone_ends hh

end Sys2Proof.Machine

/-! ### A whole recording: KEY, edges, stop (40_capture R101, R109, R110) -/

namespace Sys2Proof.Machine

/-! #### Runs -/

theorem runEvents_cons (i : Instr) (is : List Instr) (s : State) :
    runEvents (i :: is) s = andThen (exec i s) (runEvents is) := rfl

@[simp] theorem runEvents_singleton (i : Instr) (s : State) : runEvents [i] s = exec i s := by
  rw [runEvents_cons]
  cases exec i s <;> rfl

theorem runEvents_append (is js : List Instr) (s : State) :
    runEvents (is ++ js) s = andThen (runEvents is s) (runEvents js) := by
  induction is generalizing s with
  | nil => rfl
  | cons i is ih =>
    rw [List.cons_append, runEvents_cons, runEvents_cons]
    cases exec i s with
    | next t => exact ih t
    | fault e => rfl
    | refused e => rfl

/-- `EDGES` of two lists of deltas: the second goes on at the count the first ends with (R85). -/
theorem pseudoEdgesFrom_append (c : Word) (ds es : List Word) :
    pseudoEdgesFrom c (ds ++ es) = pseudoEdgesFrom c ds ++ pseudoEdgesFrom (ds.foldl (· + ·) c) es := by
  induction ds generalizing c with
  | nil => rfl
  | cons d ds ih => simp [pseudoEdgesFrom, ih]

/-! #### During the recording -/

/-- `s` while it records slot `sl`, the intervals `vs` captured so far and the last edge at count `c` (R101, R103). -/
def capturing (sl : SlotRef) (c : Word) (vs : List Word) (s : State) : State :=
  { s with
    slot := some sl
    ecnt := some (BitVec.ofNat 16 vs.length)
    oldc := some c
    rbuf := vs.map some ++ List.replicate (s.cfg.cap - vs.length) none
    owner := .capture
    caparm := true
    eng := .recording
    arb := .recording }

/-- In copy mode an accepted key press begins a recording of the key's slot (R140, R101). -/
theorem exec_key_capturing {s : State} {k : Word} (h : Invariant s) (he : s.eng = .idle) (hl : s.latch = .ready)
    (hc : s.copy = true) (hk : k.toNat < s.cfg.nkeys) :
    exec (.key k) s = .next (capturing ⟨s.mode, k.toNat⟩ 0 [] (press s)) := by
  have d := h.idle he
  have hgate : buttonGate s = true := buttonGate_iff.mpr ⟨d.btnie, hl⟩
  have hidle : inIdle (press s) = true := inIdle_iff.mpr d.arb
  have hstart : exec (.key k) s = .next (setArb .recording (cstart (slotForKey s k) (press s))) := by
    simp [exec, execKey, hk, onAccept_open hgate, hidle, hc, slotForKey]
  rw [hstart]
  simp [capturing, setArb, cstart, slotForKey, press, d.rbuf, emptyBuffer]

section Capturing

variable {s : State} {sl : SlotRef} {c d : Word} {vs ds : List Word}

/-- One more interval in the first register without a value. -/
theorem set_append_replicate {n : Nat} (d : Word) (h : vs.length < n) :
    (vs.map some ++ List.replicate (n - vs.length) none).set vs.length (some d) =
      (vs ++ [d]).map some ++ List.replicate (n - (vs ++ [d]).length) none := by
  obtain ⟨m, rfl⟩ : ∃ m, n = vs.length + (m + 1) := ⟨n - vs.length - 1, by omega⟩
  have hrest : vs.length + (m + 1) - (vs.length + 1) = m := by omega
  simp [List.replicate_succ, hrest]

theorem toNat_ofNat_length (hcap : s.cfg.Ok) (h : vs.length ≤ s.cfg.cap) :
    (BitVec.ofNat 16 vs.length).toNat = vs.length := by
  obtain ⟨-, hcap, -⟩ := hcap
  exact (BitVec.toNat_ofNat ..).trans (Nat.mod_eq_of_lt (by omega))

theorem appendDelta_capturing (hcap : s.cfg.Ok) (h : vs.length < s.cfg.cap) :
    appendDelta d (BitVec.ofNat 16 vs.length) (capturing sl c vs s) = capturing sl c (vs ++ [d]) s := by
  have hn := toNat_ofNat_length hcap h.le
  rw [appendDelta_below (s := capturing sl c vs s) (hn.trans_lt h), hn]
  simp [capturing, set_append_replicate d h, BitVec.ofNat_add]

/-- An edge is one more interval captured, and the one that fills the buffer completes the recording (R103). -/
theorem exec_edge_capturing (hcap : s.cfg.Ok) (h : vs.length < s.cfg.cap) :
    exec (.edge (c + d)) (capturing sl c vs s) =
      if vs.length + 1 = s.cfg.cap then cdone (capturing sl (c + d) (vs ++ [d]) s)
      else .next (capturing sl (c + d) (vs ++ [d]) s) := by
  have hn : (BitVec.ofNat 16 (vs ++ [d]).length).toNat = vs.length + 1 := by
    rw [toNat_ofNat_length hcap (by simpa using h), List.length_append, List.length_singleton]
  have hedge : exec (.edge (c + d)) (capturing sl c vs s) = edgeFinish (c + d) _ := execEdge_armed rfl rfl rfl
  rw [hedge, add_sub_cancel_left, appendDelta_capturing hcap h]
  split
  case isTrue hfull => exact edgeFinish_at_capacity rfl (hn.trans hfull)
  case isFalse hfull => exact edgeFinish_off_capacity rfl fun e => hfull (hn.symm.trans e)

/-- The edges of a list of deltas below capacity are captured in order. -/
theorem runEvents_edges_capturing (hcap : s.cfg.Ok) (h : vs.length + ds.length < s.cfg.cap) :
    runEvents (pseudoEdgesFrom c ds) (capturing sl c vs s) =
      .next (capturing sl (ds.foldl (· + ·) c) (vs ++ ds) s) := by
  induction ds generalizing c vs with
  | nil => simp [pseudoEdgesFrom, runEvents]
  | cons d ds ih =>
    rw [List.length_cons] at h
    rw [pseudoEdgesFrom, runEvents_cons, exec_edge_capturing hcap (by omega), if_neg (by omega),
      andThen_next, ih (by simp; omega), List.append_assoc]
    rfl

/-- With room for the slot's record, a recording in progress holds the intervals captured. -/
theorem holds_capturing (hcap : s.cfg.Ok) (hm : sl.m < s.cfg.nmodes) (hk : sl.k < s.cfg.nkeys)
    (h : vs.length ≤ s.cfg.cap) : Holds (capturing sl c vs s) sl (BitVec.ofNat 16 vs.length) vs := by
  have hn := toNat_ofNat_length hcap h
  refine ⟨rfl, rfl, hn.symm, ?_, ?_⟩ <;> rw [hn]
  · exact List.take_left' (List.length_map ..)
  · exact inStore_psAddr hcap hm hk h

end Capturing

/-! #### After the recording -/

/-- `t` is idle, and its store is that of `s` with the intervals `vs` in slot `sl` (R106, R109). -/
structure Recorded (sl : SlotRef) (vs : List Word) (s t : State) : Prop where
  cfg : t.cfg = s.cfg
  eng : t.eng = .idle
  arb : t.arb = .idle
  caparm : t.caparm = false
  ps : SlotWritten s.cfg s.ps t.ps sl (BitVec.ofNat 16 vs.length) vs

theorem SlotWritten.read_interval {c : Config} {m m' : Memory} {sl : SlotRef} {n : Word} {vs : List Word}
    (h : SlotWritten c m m' sl n vs) {i : Nat} (hi : i < vs.length) :
    m'.read c (psAddr c sl + 1 + i) = some vs[i] := by
  rw [h, if_neg (by omega), if_pos (by omega), show psAddr c sl + 1 + i - psAddr c sl - 1 = i by omega,
    List.getElem?_eq_getElem hi]

section Recorded

variable {s t : State} {sl : SlotRef} {c d : Word} {vs ds : List Word}

theorem cdone_capturing (hcap : s.cfg.Ok) (hm : sl.m < s.cfg.nmodes) (hk : sl.k < s.cfg.nkeys)
    (h : vs.length ≤ s.cfg.cap) : ∃ t, cdone (capturing sl c vs s) = .next t ∧ Recorded sl vs s t := by
  obtain ⟨m, hw, e⟩ := cdone_ends (holds_capturing (c := c) hcap hm hk h)
  exact ⟨_, e, rfl, rfl, rfl, rfl, hw⟩

/-- The edges that fill the buffer complete the recording (R103). -/
theorem runEvents_edges_recorded (hcap : s.cfg.Ok) (hm : sl.m < s.cfg.nmodes) (hk : sl.k < s.cfg.nkeys)
    (h : ds.length = s.cfg.cap) :
    ∃ t, runEvents (pseudoEdges ds) (capturing sl 0 [] s) = .next t ∧ Recorded sl ds s t := by
  have ⟨hpos, _⟩ := hcap
  obtain rfl | ⟨es, d, rfl⟩ := List.eq_nil_or_concat' ds
  · rw [← h] at hpos
    cases hpos
  · rw [List.length_append, List.length_singleton] at h
    rw [pseudoEdges, pseudoEdgesFrom_append, runEvents_append,
      runEvents_edges_capturing hcap (by simp; omega), andThen_next, List.nil_append, pseudoEdgesFrom, pseudoEdgesFrom,
      runEvents_singleton, exec_edge_capturing hcap (by omega), if_pos h]
    exact cdone_capturing hcap hm hk (by simp; omega)

/-- While not armed every edge is dropped (R103). -/
theorem runEvents_edges_unarmed (h : s.caparm = false) : runEvents (pseudoEdgesFrom c ds) s = .next s := by
  induction ds generalizing c with
  | nil => rfl
  | cons d ds ih =>
    have hedge : exec (.edge (c + d)) s = .next s := execEdge_unarmed h
    rw [pseudoEdgesFrom, runEvents_cons, hedge, andThen_next, ih]

/-- What the slot and the rest of the store read as after the recording (R109, R67). -/
theorem Recorded.reads (h : Recorded sl vs s t) (hroom : inStore s.cfg (psAddr s.cfg sl) (vs.length + 1) = true) :
    psLen t sl = .ok (BitVec.ofNat 16 vs.length) ∧ (∀ i (hi : i < vs.length), psIvl t sl i = .ok vs[i]) ∧
      ∀ a, ¬(psAddr s.cfg sl ≤ a ∧ a ≤ psAddr s.cfg sl + vs.length) → t.ps.read t.cfg a = s.ps.read s.cfg a := by
  rw [inStore_iff] at hroom
  simp only [psLen, psIvl, memReadUnit_ok, inStore_iff, h.cfg]
  exact ⟨⟨by omega, h.ps.read_psAddr⟩, fun i hi => ⟨by omega, h.ps.read_interval hi⟩,
    fun a ha => not_not.mp (mt h.ps.mem_record_of_ne ha)⟩

end Recorded

/-! #### The stop -/

/-- What stops a recording (R104, R143): `TMO`, or an accepted press of a control button. -/
def stops : List (List Instr) := [[.tmo], [.settle, .ok], [.settle, .copy]]

section Stop

variable {s t : State} {sl : SlotRef} {c : Word} {vs : List Word} {stop : List Instr}

/-- A stop of a recording is CDONE behind the latch it leaves. -/
theorem runEvents_stop_capturing (hb : s.btnie = true) (h : stop ∈ stops) :
    ∃ l, runEvents stop (capturing sl c vs s) = cdone (capturing sl c vs { s with latch := l }) := by
  have hpress (i : Instr) (hi : i = .copy ∨ i = .ok) : ∃ l, runEvents [.settle, i] (capturing sl c vs s) =
      cdone (capturing sl c vs { s with latch := l }) := by
    obtain ⟨l, hl⟩ := exec_eq_cdone (s := capturing sl c vs { s with latch := .ready }) (i := i)
      (.inr ⟨hi, buttonGate_iff.mpr ⟨hb, rfl⟩, rfl⟩)
    exact ⟨l, (runEvents_singleton i _).trans (hl _ rfl rfl rfl rfl)⟩
  simp only [stops, List.mem_cons, List.not_mem_nil, or_false] at h
  obtain rfl | rfl | rfl := h
  · exact ⟨s.latch, runEvents_singleton ..⟩
  · exact hpress .ok (.inr rfl)
  · exact hpress .copy (.inl rfl)

/-- With the arbiter idle a control button touches the latch, the copy mode and the display request alone (R141, R142). -/
theorem exec_control_idle {i : Instr} (hi : i = .copy ∨ i = .ok) (ha : t.arb = .idle) :
    ∃ l b d, exec i t = .next { t with latch := l, copy := b, disp := d } := by
  have hidle : inIdle (press t) = true := inIdle_iff.mpr (.inl ha)
  cases hg : buttonGate t with
  | false =>
    refine ⟨t.latch, t.copy, t.disp, ?_⟩
    obtain rfl | rfl := hi <;> exact onAccept_closed hg
  | true =>
    obtain rfl | rfl := hi
    · exact ⟨_, _, _, (onAccept_open hg).trans (if_pos hidle)⟩
    · have hok : exec .ok t = if t.copy then .next (leaveCopy (press t)) else .next (press t) :=
        (onAccept_open hg).trans (if_pos hidle)
      rw [hok]
      split
      · exact ⟨_, _, _, rfl⟩
      · exact ⟨.pressed, t.copy, t.disp, rfl⟩

/-- A stop after the recording completed leaves it recorded. -/
theorem Recorded.after_stop (h : Recorded sl vs s t) (hstop : stop ∈ stops) :
    ∃ u, runEvents stop t = .next u ∧ Recorded sl vs s u := by
  have hpress (i : Instr) (hi : i = .copy ∨ i = .ok) :
      ∃ u, runEvents [.settle, i] t = .next u ∧ Recorded sl vs s u := by
    obtain ⟨l, b, d, e⟩ := exec_control_idle (t := { t with latch := .ready }) hi h.arb
    exact ⟨_, (runEvents_singleton i _).trans e, h.cfg, h.eng, h.arb, h.caparm, h.ps⟩
  simp only [stops, List.mem_cons, List.not_mem_nil, or_false] at hstop
  obtain rfl | rfl | rfl := hstop
  · have hne : t.eng ≠ .recording := by simp [h.eng]
    exact ⟨t, (runEvents_singleton ..).trans (if_neg hne), h⟩
  · exact hpress .ok (.inr rfl)
  · exact hpress .copy (.inl rfl)

/-- A stop below capacity completes the recording with the intervals captured (R109). -/
theorem runEvents_stop_recorded (hcap : s.cfg.Ok) (hm : sl.m < s.cfg.nmodes) (hk : sl.k < s.cfg.nkeys)
    (hb : s.btnie = true) (h : vs.length ≤ s.cfg.cap) (hstop : stop ∈ stops) :
    ∃ t, runEvents stop (capturing sl c vs s) = .next t ∧ Recorded sl vs s t := by
  obtain ⟨l, e⟩ := runEvents_stop_capturing (sl := sl) (c := c) (vs := vs) hb hstop
  obtain ⟨t, ht, hr⟩ := cdone_capturing (s := { s with latch := l }) (c := c) hcap hm hk h
  exact ⟨t, e.trans ht, hr.cfg, hr.eng, hr.arb, hr.caparm, hr.ps⟩

/-- The edges and the stop of a recording leave it recorded (R109). -/
theorem runEvents_recording {ds : List Word} (hcap : s.cfg.Ok) (hm : sl.m < s.cfg.nmodes) (hk : sl.k < s.cfg.nkeys)
    (hb : s.btnie = true) (hlen : ds.length ≤ s.cfg.cap) (h : stop ∈ stops ∨ (stop = [] ∧ ds.length = s.cfg.cap)) :
    ∃ t, runEvents (pseudoEdges ds ++ stop) (capturing sl 0 [] s) = .next t ∧ Recorded sl ds s t := by
  rw [runEvents_append]
  obtain hlt | hfull := Nat.lt_or_eq_of_le hlen
  · have hstop : stop ∈ stops := h.resolve_right fun h => hlt.ne h.2
    rw [pseudoEdges, runEvents_edges_capturing hcap (by simpa using hlt)]
    exact runEvents_stop_recorded hcap hm hk hb hlen hstop
  · obtain ⟨t, ht, hr⟩ := runEvents_edges_recorded hcap hm hk hfull
    rw [ht]
    obtain hstop | ⟨rfl, -⟩ := h
    · exact hr.after_stop hstop
    · exact ⟨t, rfl, hr⟩

end Stop

/-- Settles O28: KEY begins the recording, the edges and the stop complete it, and the slot write gives the reads. -/
theorem recordingRoundTrip : Obligations.RecordingRoundTrip := by
  intro s k ds stop h he hl hc hk hlen hstop
  obtain ⟨t, hrun, hr⟩ := runEvents_recording (s := press s) (sl := ⟨s.mode, k.toNat⟩) h.params h.modeRange hk
    (h.idle he).btnie hlen hstop
  refine ⟨t, ?_, hr.eng, hr.reads (inStore_psAddr h.params h.modeRange hk hlen)⟩
  rw [runEvents_cons, exec_key_capturing h he hl hc hk]
  exact hrun

/-- Settles O29: the first `CAP` edges complete the recording, and the rest are dropped. -/
theorem recordingTruncatesAtCapacity : Obligations.RecordingTruncatesAtCapacity := by
  intro s k ds h he hl hc hk hlen
  have htake : (ds.take s.cfg.cap).length = s.cfg.cap := List.length_take_of_le hlen.le
  obtain ⟨t, hrun, hr⟩ := runEvents_edges_recorded (s := press s) (sl := ⟨s.mode, k.toNat⟩) h.params h.modeRange hk
    htake
  have hroom := inStore_psAddr (sl := ⟨s.mode, k.toNat⟩) h.params h.modeRange hk htake.le
  obtain ⟨hread, hivl, hframe⟩ := hr.reads hroom
  rw [htake] at hread hframe
  have hall : runEvents (pseudoEdges ds) (capturing ⟨s.mode, k.toNat⟩ 0 [] (press s)) = .next t := by
    have happend := pseudoEdgesFrom_append 0 (ds.take s.cfg.cap) (ds.drop s.cfg.cap)
    rw [List.take_append_drop] at happend
    rw [pseudoEdges, happend, runEvents_append, ← pseudoEdges, hrun]
    exact runEvents_edges_unarmed hr.caparm
  simp only [runEvents_cons, exec_key_capturing h he hl hc hk, andThen_next]
  refine ⟨t, hrun, hall, hr.eng, hread, fun i hi hicap => ?_, hframe⟩
  rw [hivl i (by omega), List.getElem_take]


end Sys2Proof.Machine

/-! ### ENV against the playback rule (41_playback R123, R125) -/

namespace Sys2Proof.Machine

section Env

variable {s : State} {sl : SlotRef} {n i v : Word}

/-- Before the end of the slot's list, ENV loads the cursor's interval. -/
theorem exec_env_loads (he : s.enven = true) (hs : s.slot = some sl) (hn : psLen s sl = .ok n) (hc : s.cur = some i)
    (hlt : i.toNat < n.toNat) (hv : psIvl s sl i.toNat = .ok v) : exec .env s = .next (loadPeriod v i s) := by
  simp [exec, execEnv_enabled he hs hn, readCur_some hc, hlt, hv]

/-- At the end of the slot's list, ENV completes the playback. -/
theorem exec_env_completes (he : s.enven = true) (hs : s.slot = some sl) (hn : psLen s sl = .ok n)
    (hc : s.cur = some i) (hge : ¬ i.toNat < n.toNat) : exec .env s = .next (pdone s) := by
  simp [exec, execEnv_enabled he hs hn, readCur_some hc, hge]

end Env

/-- Settles O30: ENV disabled, before the end of the slot's list, and at it. -/
theorem envWalksTheSlot : Obligations.EnvWalksTheSlot := fun _ =>
  ⟨execEnv_disabled, fun _ _ _ he hs hn hc =>
    ⟨fun hlt _ hv => exec_env_loads he hs hn hc hlt hv, fun hge => exec_env_completes he hs hn hc hge⟩⟩

end Sys2Proof.Machine

/-! ### A whole playback: KEY, then one ENV a period (41_playback R121, R124) -/

namespace Sys2Proof.Machine

/-! #### The slot's code -/

/-- Slot `sl` of the store holds a code: `n` intervals, at least one, the list `vs` (R64). -/
structure SlotCode (s : State) (sl : SlotRef) (n : Word) (vs : List Word) : Prop where
  len : psLen s sl = .ok n
  count : vs.length = n.toNat
  pos : 0 < vs.length
  ivl : ∀ i (hi : i < vs.length), psIvl s sl i = .ok vs[i]

/-- A run that reads is as long as asked, and each of its units holds its value of the list. -/
theorem readRun_eq_ok {s : State} {a n : Nat} {vs : List Word} (h : readRun s a n = .ok vs) :
    vs.length = n ∧ ∀ i (hi : i < vs.length), s.ps.read s.cfg (a + i) = some vs[i] := by
  induction n generalizing a vs with
  | zero =>
    cases h
    exact ⟨rfl, fun i hi => absurd hi (Nat.not_lt_zero i)⟩
  | succ n ih =>
    unfold readRun at h
    split at h
    case h_1 => cases h
    case h_2 v hv =>
      split at h
      case h_1 => cases h
      case h_2 ws hws =>
        cases h
        obtain ⟨hlen, hunits⟩ := ih hws
        refine ⟨congrArg Nat.succ hlen, fun i hi => ?_⟩
        cases i with
        | zero => exact readReg_eq_ok.mp hv
        | succ i => simpa [Nat.add_assoc, Nat.add_comm 1 i] using hunits i (Nat.lt_of_succ_lt_succ hi)

/-- A run that reads lies inside the store, and each of its units can be read alone (R13). -/
theorem memReadUnit_of_memRead {s : State} {a n : Nat} {vs : List Word} (h : memRead s a n = .ok vs) :
    vs.length = n ∧ ∀ i (hi : i < vs.length), memReadUnit s (a + i) = .ok vs[i] := by
  unfold memRead at h
  split at h
  case isTrue hr =>
    rw [inStore_iff] at hr
    obtain ⟨hlen, hunits⟩ := readRun_eq_ok h
    exact ⟨hlen, fun i hi => memReadUnit_ok.mpr ⟨inStore_iff.mpr (by omega), hunits i hi⟩⟩
  case isFalse => cases h

section SlotCode

variable {s t : State} {sl : SlotRef} {n : Word} {vs : List Word}

/-- A slot that reads as a list of intervals holds that list as its code (R64). -/
theorem slotCode_of_psRead (h : psRead s sl = .ok (some vs)) : ∃ n, SlotCode s sl n vs := by
  unfold psRead at h
  split at h
  case h_1 => cases h
  case h_2 n hn =>
    split at h
    case isTrue => cases h
    case isFalse hne =>
      split at h
      case h_1 => cases h
      case h_2 ws hws =>
        cases h
        obtain ⟨hcount, hivl⟩ := memReadUnit_of_memRead hws
        have hpos : 0 < n.toNat := Nat.pos_of_ne_zero fun h => hne (BitVec.eq_of_toNat_eq h)
        exact ⟨n, hn, hcount, hcount ▸ hpos, hivl⟩

theorem SlotCode.congr (h : SlotCode s sl n vs) (hc : t.cfg = s.cfg) (hp : t.ps = s.ps) : SlotCode t sl n vs :=
  ⟨(psLen_congr hc hp).trans h.len, h.count, h.pos, fun i hi => (psIvl_congr hc hp).trans (h.ivl i hi)⟩

end SlotCode

/-! #### The periods -/

/-- `s` while it plays slot `sl`, in period `j` of length `v` (R121, R123). -/
def playingPeriod (sl : SlotRef) (j : Nat) (v : Word) (s : State) : State :=
  { setArb .playing (playFrom sl v s) with
    cur := some (BitVec.ofNat 16 (j + 1))
    outen := Bool.xor s.cfg.envInit (decide (j % 2 = 1)) }

theorem playingPeriod_zero (sl : SlotRef) (v : Word) (s : State) :
    playingPeriod sl 0 v s = setArb .playing (playFrom sl v s) := by
  simp [playingPeriod, playFrom, setArb]

/-- The next period's parity is the other one. -/
theorem loadPeriod_playingPeriod (sl : SlotRef) (j : Nat) (v w : Word) (s : State) :
    loadPeriod w (BitVec.ofNat 16 (j + 1)) (playingPeriod sl j v s) = playingPeriod sl (j + 1) w s := by
  have hparity : decide ((j + 1) % 2 = 1) = !decide (j % 2 = 1) := by
    rw [← decide_not, decide_eq_decide]
    omega
  simp [loadPeriod, playingPeriod, playFrom, setArb, add16, hparity, BitVec.ofNat_add]

/-- Outside copy mode an accepted key press on a slot that holds a code begins its first period (R140, R121). -/
theorem exec_key_playingPeriod {s : State} {k n : Word} {vs : List Word} (h : Invariant s) (he : s.eng = .idle)
    (hl : s.latch = .ready) (hc : s.copy = false) (hk : k.toNat < s.cfg.nkeys)
    (hcode : SlotCode (press s) ⟨s.mode, k.toNat⟩ n vs) :
    exec (.key k) s = .next (playingPeriod ⟨s.mode, k.toNat⟩ 0 (vs[0]'hcode.pos) (press s)) := by
  have d := h.idle he
  have hgate : buttonGate s = true := buttonGate_iff.mpr ⟨d.btnie, hl⟩
  have hidle : inIdle (press s) = true := inIdle_iff.mpr d.arb
  have hpos : 0 < n.toNat := hcode.count ▸ hcode.pos
  have hstart : exec (.key k) s = keyPlay ⟨s.mode, k.toNat⟩ (press s) := by
    simp [exec, execKey, hk, onAccept_open hgate, hidle, hc, slotForKey]
  rw [hstart, playingPeriod_zero]
  simp [keyPlay, hcode.len, hpos, pstart, hcode.ivl 0 hcode.pos]

section Periods

variable {s : State} {sl : SlotRef} {n v : Word} {vs : List Word} {j : Nat}

theorem SlotCode.toNat_cursor (h : SlotCode s sl n vs) (hj : j < vs.length) :
    (BitVec.ofNat 16 (j + 1)).toNat = j + 1 :=
  (BitVec.toNat_ofNat ..).trans (Nat.mod_eq_of_lt (by have := h.count; omega))

/-- ENV goes on to the next period of the code (R123). -/
theorem exec_env_playingPeriod (h : SlotCode s sl n vs) (hj : j + 1 < vs.length) :
    exec .env (playingPeriod sl j v s) = .next (playingPeriod sl (j + 1) vs[j + 1] s) := by
  have hplay : SlotCode (playingPeriod sl j v s) sl n vs := h.congr rfl rfl
  have hcur := h.toNat_cursor (Nat.lt_of_succ_lt hj)
  rw [← loadPeriod_playingPeriod sl j v]
  refine exec_env_loads rfl rfl hplay.len rfl ?_ ?_ <;> rw [hcur]
  · exact h.count ▸ hj
  · exact hplay.ivl _ hj

/-- ENV after the code's last period completes the playback (R123, R125). -/
theorem exec_env_lastPeriod (h : SlotCode s sl n vs) (hj : j + 1 = vs.length) :
    exec .env (playingPeriod sl j v s) = .next (pdone (playingPeriod sl j v s)) := by
  have hplay : SlotCode (playingPeriod sl j v s) sl n vs := h.congr rfl rfl
  refine exec_env_completes rfl rfl hplay.len rfl ?_
  rw [h.toNat_cursor (Nat.lt_of_succ_le hj.le), hj, h.count]
  exact Nat.lt_irrefl _

/-- One ENV a period takes the playback through the code in order (R124). -/
theorem runEvents_env_playingPeriod (h : SlotCode s sl n vs) (hj : j < vs.length) :
    runEvents (List.replicate j .env) (playingPeriod sl 0 (vs[0]'h.pos) s) = .next (playingPeriod sl j vs[j] s) := by
  induction j with
  | zero => rfl
  | succ j ih =>
    rw [List.replicate_succ', runEvents_append, ih (Nat.lt_of_succ_lt hj), andThen_next, runEvents_singleton,
      exec_env_playingPeriod h hj]

/-- As many ENV events as intervals complete the playback (R124). -/
theorem runEvents_env_completes (h : SlotCode s sl n vs) :
    ∃ j v, runEvents (List.replicate vs.length .env) (playingPeriod sl 0 (vs[0]'h.pos) s) =
      .next (pdone (playingPeriod sl j v s)) := by
  obtain ⟨j, hj⟩ := Nat.exists_eq_add_one.mpr h.pos
  have hlt : j < vs.length := hj ▸ Nat.lt_succ_self j
  refine ⟨j, vs[j], ?_⟩
  rw [hj, List.replicate_succ', runEvents_append, runEvents_env_playingPeriod h hlt, andThen_next, runEvents_singleton,
    exec_env_lastPeriod h hj.symm]

end Periods

/-- Settles O31: KEY begins the first period, each ENV the next one, and the one after the last completes the playback. -/
theorem playbackReplaysTheSlot : Obligations.PlaybackReplaysTheSlot := by
  intro s k vs h he hl hc hk hread
  obtain ⟨n, hcode⟩ := slotCode_of_psRead hread
  have hpress : SlotCode (press s) ⟨s.mode, k.toNat⟩ n vs := hcode.congr rfl rfl
  simp only [runEvents_cons, exec_key_playingPeriod h he hl hc hk hpress, andThen_next]
  refine ⟨fun j hj => ⟨_, runEvents_env_playingPeriod hpress hj, rfl, rfl, rfl, rfl⟩, ?_⟩
  obtain ⟨j, v, hrun⟩ := runEvents_env_completes hpress
  exact ⟨_, hrun, rfl, rfl, rfl, rfl⟩

end Sys2Proof.Machine

/-! ### Button presses by the gate and the arbiter's state (42_arbiter R136, R140 to R145) -/

namespace Sys2Proof.Machine

section Press

variable {s : State} {i : Instr} {k n v : Word} {sl : SlotRef}

theorem buttonGate_eq_false (h : s.btnie = false ∨ s.latch = .pressed) : buttonGate s = false := by
  obtain h | h := h <;> simp [buttonGate, h]

theorem inIdle_of_recording (h : s.arb = .recording) : inIdle s = false := by simp [inIdle, h]

/-- A closed gate drops every button event that has a step (R136, R173). -/
theorem exec_button_closed (hb : i.isButton = true) (hi : WellFormed s.cfg i) (hg : buttonGate s = false) :
    exec i s = .next s := by
  cases i with
  | key k => exact (if_pos (of_decide_eq_true hi)).trans (onAccept_closed hg)
  | copy | ok | mode => exact onAccept_closed hg
  | por | edge _ | env | settle | tmo | sleep => cases hb

theorem execKey_open (hk : k.toNat < s.cfg.nkeys) (hg : buttonGate s = true) :
    exec (.key k) s =
      if inIdle s then
        if s.copy then .next (setArb .recording (cstart (slotForKey s k) (press s)))
        else keyPlay (slotForKey s k) (press s)
      else .next (press s) :=
  (if_pos hk).trans (onAccept_open hg)

theorem execCopy_open (hg : buttonGate s = true) :
    exec .copy s = if inIdle s then .next (toggleCopy (press s)) else cdone (press s) :=
  onAccept_open hg

theorem execOk_open (hg : buttonGate s = true) :
    exec .ok s =
      if inIdle s then if s.copy then .next (leaveCopy (press s)) else .next (press s) else cdone (press s) :=
  onAccept_open hg

theorem execMode_open (hg : buttonGate s = true) :
    exec .mode s = if inIdle s then .next (advanceMode (press s)) else .next (press s) :=
  onAccept_open hg

/-- KEY's playback branch on a slot that holds a code (R121). -/
theorem keyPlay_of_code (hn : psLen s sl = .ok n) (hpos : 0 < n.toNat) (hv : psIvl s sl 0 = .ok v) :
    keyPlay sl s = .next (setArb .playing (playFrom sl v s)) := by
  simp [keyPlay, pstart, hn, hpos, hv]

/-- KEY's playback branch on a slot that holds no code (R127). -/
theorem keyPlay_of_noCode (hn : psLen s sl = .ok 0) : keyPlay sl s = .next (setDisp .noCode s) := by
  simp [keyPlay, hn]

/-- Outside `Idle` and `ModeDisplay` an accepted keypad or mode press sets the latch alone (R145, D12). -/
theorem exec_ignored (hi : i = .mode ∨ ∃ k : Word, k.toNat < s.cfg.nkeys ∧ i = .key k) (hg : buttonGate s = true)
    (ha : inIdle s = false) : exec i s = .next (press s) := by
  obtain rfl | ⟨k, hk, rfl⟩ := hi
  · simp [execMode_open hg, ha]
  · simp [execKey_open hk hg, ha]

/-- Outside `Idle` and `ModeDisplay` an accepted press of a control button completes the recording held (R143). -/
theorem exec_cancels {vs : List Word} (hi : i = .copy ∨ i = .ok) (hg : buttonGate s = true) (ha : inIdle s = false)
    (h : Holds s sl n vs) : CaptureEnds (press s) sl n vs (exec i s) := by
  have hcdone : exec i s = cdone (press s) := by
    obtain rfl | rfl := hi
    · simp [execCopy_open hg, ha]
    · simp [execOk_open hg, ha]
  exact hcdone ▸ cdone_ends h.press

end Press

/-- Settles O20: COPY at a closed gate, at an open one with the arbiter idle, and during a recording. -/
theorem copyPressTogglesOrCancels : Obligations.CopyPressTogglesOrCancels := by
  refine fun s => ⟨fun h => exec_button_closed rfl rfl (buttonGate_eq_false h), fun hb hl ha => ?_,
    fun hb hl ha sl n vs h => ?_⟩
  · rw [execCopy_open (buttonGate_iff.mpr ⟨hb, hl⟩), if_pos (inIdle_iff.mpr ha)]
    rfl
  · exact exec_cancels (.inl rfl) (buttonGate_iff.mpr ⟨hb, hl⟩) (inIdle_of_recording ha) h

/-- Settles O21: OK at a closed gate, at an open one in and outside copy mode, and during a recording. -/
theorem okPressLeavesCopyModeOrCancels : Obligations.OkPressLeavesCopyModeOrCancels := by
  refine fun s => ⟨fun h => exec_button_closed rfl rfl (buttonGate_eq_false h), fun hb hl ha => ?_,
    fun hb hl ha sl n vs h => ?_⟩
  · rw [execOk_open (buttonGate_iff.mpr ⟨hb, hl⟩), if_pos (inIdle_iff.mpr ha)]
    exact ⟨fun hc => if_pos hc, fun hc => if_neg (by simp [hc])⟩
  · exact exec_cancels (.inr rfl) (buttonGate_iff.mpr ⟨hb, hl⟩) (inIdle_of_recording ha) h

/-- Settles O22: KEY at a closed gate, at an open one with each of its three starts, and during a recording. -/
theorem keyPressStartsAnEngine : Obligations.KeyPressStartsAnEngine := by
  refine fun s k hk => ⟨fun h => exec_button_closed rfl (decide_eq_true hk) (buttonGate_eq_false h),
    fun hb hl ha => ?_, fun hb hl ha => ?_⟩
  · rw [execKey_open hk (buttonGate_iff.mpr ⟨hb, hl⟩), if_pos (inIdle_iff.mpr ha)]
    refine ⟨fun hc => if_pos hc, fun hc n v hn hpos hv => ?_, fun hc hn => ?_⟩
    · rw [if_neg (by simp [hc])]
      exact keyPlay_of_code (s := press s) hn hpos hv
    · rw [if_neg (by simp [hc])]
      exact keyPlay_of_noCode (s := press s) hn
  · exact exec_ignored (.inr ⟨k, hk, rfl⟩) (buttonGate_iff.mpr ⟨hb, hl⟩) (inIdle_of_recording ha)

/-- Settles O17: the event's one write. -/
theorem settleReleasesTheLatch : Obligations.SettleReleasesTheLatch := fun _ => rfl

/-- Settles O19: MODE at a closed gate, at an open one with the arbiter idle, and during a recording. -/
theorem modePressAdvancesTheMode : Obligations.ModePressAdvancesTheMode := by
  refine fun s => ⟨fun h => exec_button_closed rfl rfl (buttonGate_eq_false h), fun hb hl ha => ?_,
    fun hb hl ha => ?_⟩
  · rw [execMode_open (buttonGate_iff.mpr ⟨hb, hl⟩), if_pos (inIdle_iff.mpr ha)]
    rfl
  · exact exec_ignored (.inl rfl) (buttonGate_iff.mpr ⟨hb, hl⟩) (inIdle_of_recording ha)

/-- Settles O23: the arbiter's state is neither of the two in which these presses act. -/
theorem recordingIgnoresKeypadAndMode : Obligations.RecordingIgnoresKeypadAndMode :=
  fun _ _ hi hb hl ha => exec_ignored hi (buttonGate_iff.mpr ⟨hb, hl⟩) (inIdle_of_recording ha)

end Sys2Proof.Machine

/-! ### ModeDisplay against Idle (42_arbiter R146) -/

namespace Sys2Proof.Machine

/-- `f` does in `ModeDisplay` what it does in `Idle`, but that where it leaves `ARB` at `Idle` it leaves
`ModeDisplay` (R146). -/
def ActsAsIdle (f : State → Result) : Prop :=
  ∀ s, s.arb = .idle → f (setArb .modeDisplay s) = keepModeDisplay (f s)

section ActsAsIdle

variable {f g : State → Result} {u : State → State}

/-- A part of an event that leaves `ARB` alone. -/
theorem actsAsIdle_of_stays (h : ∀ s, u (setArb .modeDisplay s) = setArb .modeDisplay (u s))
    (harb : ∀ s, (u s).arb = s.arb) : ActsAsIdle fun s => .next (u s) := by
  intro s ha
  dsimp only
  rw [h]
  simp [keepModeDisplay, (harb s).trans ha, setArb]

/-- A part of an event that takes `ARB` elsewhere. -/
theorem actsAsIdle_of_leaves (h : ∀ s, u (setArb .modeDisplay s) = u s) (harb : ∀ s, (u s).arb ≠ .idle) :
    ActsAsIdle fun s => .next (u s) := by
  intro s _
  simp [keepModeDisplay, h, harb s]

theorem actsAsIdle_ite {p : State → Prop} [DecidablePred p] (hp : ∀ s, p (setArb .modeDisplay s) ↔ p s)
    (hf : ActsAsIdle f) (hg : ActsAsIdle g) : ActsAsIdle fun s => if p s then f s else g s := by
  intro s ha
  by_cases h : p s
  · simpa [h, (hp s).mpr h] using hf s ha
  · simpa [h, mt (hp s).mp h] using hg s ha

/-- `Idle` and `ModeDisplay` take the same branch of a button's rule. -/
theorem actsAsIdle_inIdle (hf : ActsAsIdle f) : ActsAsIdle fun s => if inIdle s then f s else g s := by
  intro s ha
  simpa [inIdle, ha] using hf s ha

/-- ACCEPT neither tests nor writes `ARB`. -/
theorem actsAsIdle_onAccept (hf : ActsAsIdle f) : ActsAsIdle (onAccept · f) := by
  intro s ha
  have hgate : buttonGate (setArb .modeDisplay s) = buttonGate s := rfl
  dsimp only
  obtain ⟨hg, e⟩ | ⟨hg, e⟩ := onAccept_cases (s := s) (f := f)
  · rw [e, onAccept_open (hgate.trans hg)]
    exact hf (press s) ha
  · rw [e, onAccept_closed (hgate.trans hg)]
    exact actsAsIdle_of_stays (u := id) (fun _ => rfl) (fun _ => rfl) s ha

/-- A read of the store does not depend on `ARB`. -/
theorem actsAsIdle_withRead {r : State → Except Fault Word} {f : Word → State → Result}
    (hr : ∀ s, r (setArb .modeDisplay s) = r s) (hf : ∀ v, ActsAsIdle (f v)) :
    ActsAsIdle fun s => withRead (r s) fun v => f v s := by
  intro s ha
  simp only [hr]
  cases r s with
  | ok v => exact hf v s ha
  | error e => rfl

end ActsAsIdle

theorem keyPlay_actsAsIdle (sl : SlotRef) : ActsAsIdle (keyPlay sl) := by
  refine actsAsIdle_withRead (fun _ => psLen_congr rfl rfl) fun n => actsAsIdle_ite (fun _ => Iff.rfl) ?plays ?noCode
  case plays =>
    have hstart (s : State) : (andThen (pstart sl s) fun t => .next (setArb .playing t)) =
        withRead (psIvl s sl 0) fun v => .next (setArb .playing (playFrom sl v s)) := by
      unfold pstart
      cases psIvl s sl 0 <;> rfl
    simp only [hstart]
    exact actsAsIdle_withRead (fun _ => psIvl_congr rfl rfl) fun v =>
      actsAsIdle_of_leaves (fun _ => rfl) fun _ => by simp
  case noCode => exact actsAsIdle_of_stays (fun _ => rfl) fun _ => rfl

theorem execKey_actsAsIdle (k : Word) : ActsAsIdle (execKey k) := by
  refine actsAsIdle_ite (fun _ => Iff.rfl) (actsAsIdle_onAccept (actsAsIdle_inIdle ?_)) fun _ _ => rfl
  exact actsAsIdle_ite (fun _ => Iff.rfl) (actsAsIdle_of_leaves (fun _ => rfl) fun _ => by simp)
    fun s => keyPlay_actsAsIdle (slotForKey s k) s

theorem execCopy_actsAsIdle : ActsAsIdle execCopy :=
  actsAsIdle_onAccept <| actsAsIdle_inIdle <| actsAsIdle_of_stays (fun _ => rfl) fun _ => rfl

theorem execOk_actsAsIdle : ActsAsIdle execOk :=
  actsAsIdle_onAccept <| actsAsIdle_inIdle <| actsAsIdle_ite (fun _ => Iff.rfl)
    (actsAsIdle_of_stays (fun _ => rfl) fun _ => rfl) (actsAsIdle_of_stays (u := id) (fun _ => rfl) fun _ => rfl)

theorem execMode_actsAsIdle : ActsAsIdle execMode :=
  actsAsIdle_onAccept <| actsAsIdle_inIdle <| actsAsIdle_of_leaves (fun _ => rfl) fun _ => by simp

theorem exec_button_actsAsIdle {i : Instr} (hb : i.isButton = true) : ActsAsIdle (exec i) := by
  cases i with
  | key k => exact execKey_actsAsIdle k
  | copy => exact execCopy_actsAsIdle
  | ok => exact execOk_actsAsIdle
  | mode => exact execMode_actsAsIdle
  | por | edge _ | env | settle | tmo | sleep => cases hb

/-- Settles O24: a state in `ModeDisplay` is the state in `Idle` with the arbiter moved on. -/
theorem modeDisplayActsAsIdle : Obligations.ModeDisplayActsAsIdle := by
  refine fun s ha => ⟨fun i hb => ?_, fun hw => ?_⟩
  · have hs : setArb .modeDisplay { s with arb := .idle } = s := by rw [setArb, ← ha]
    have hbutton := exec_button_actsAsIdle hb { s with arb := .idle } rfl
    rwa [hs] at hbutton
  · simp [exec, execSleep, hw, park, ha]

end Sys2Proof.Machine

/-! ### One press between two releases of the latch (42_arbiter R136, R138) -/

namespace Sys2Proof.Machine

section Debounce

variable {s t : State} {i : Instr} {is : List Instr}

theorem exec_button_next (hb : i.isButton = true) (h : exec i s = .next t) : ButtonNext s i t := by
  cases i with
  | key k => exact execKey_next h
  | copy => exact execCopy_next h
  | ok => exact execOk_next h
  | mode => exact execMode_next h
  | por | edge _ | env | settle | tmo | sleep => cases hb

/-- An accepted press leaves the latch pressed, whatever else it does (R136). -/
theorem ButtonNext.latch_of_open (h : ButtonNext s i t) (hg : buttonGate s = true) : t.latch = .pressed := by
  cases h with
  | dropped hclosed => simp [hg] at hclosed
  | cancels _ _ _ hd => exact (cdone_frame hd).latch
  | ignored _ _ _ | records _ _ _ | plays _ _ _ _ _ _ | noCode _ _ _ _ | toggles _ _ | leaves _ _ _ | stays _ _ _
  | advances _ _ => rfl

/-- Only SETTLE and POR release the latch (R137, R161). -/
theorem exec_latch_pressed (h : exec i s = .next t) (hl : s.latch = .pressed) (hs : i ≠ .settle) (hp : i ≠ .por) :
    t.latch = .pressed := by
  obtain ⟨hi, -⟩ | ⟨hi, -⟩ | hf | ⟨-, hf⟩ := exec_frame h
  · exact absurd hi hp
  · exact absurd hi hs
  · exact hf.latch.trans hl
  · exact hf.latch

/-- Every event of the run is well-formed, and none of them releases the latch. -/
def KeepsLatch (c : Config) (is : List Instr) : Prop := ∀ i ∈ is, i ≠ .settle ∧ i ≠ .por ∧ WellFormed c i

theorem keepsLatch_cons {c : Config} :
    KeepsLatch c (i :: is) ↔ (i ≠ .settle ∧ i ≠ .por ∧ WellFormed c i) ∧ KeepsLatch c is :=
  List.forall_mem_cons

/-- What holds of a run's first event holds of the rest, from the state it leaves. -/
theorem KeepsLatch.after_exec (h : KeepsLatch s.cfg (i :: is)) (hl : s.latch = .pressed) (hx : exec i s = .next t) :
    KeepsLatch t.cfg is ∧ t.latch = .pressed := by
  obtain ⟨⟨hs, hp, -⟩, hrest⟩ := keepsLatch_cons.mp h
  rw [(eventsKeepParametersAndStream s t i hx).1]
  exact ⟨hrest, exec_latch_pressed hx hl hs hp⟩

theorem runEvents_latch_pressed (h : KeepsLatch s.cfg is) (hl : s.latch = .pressed) (hx : runEvents is s = .next t) :
    t.latch = .pressed := by
  induction is generalizing s with
  | nil =>
    cases hx
    exact hl
  | cons i is ih =>
    obtain ⟨u, hu, hx⟩ := andThen_eq_next hx
    obtain ⟨hrest, hlu⟩ := h.after_exec hl hu
    exact ih hrest hlu hx

/-- While the latch is pressed a run's button events can be left out (R138). -/
theorem runEvents_filter_isButton (h : KeepsLatch s.cfg is) (hl : s.latch = .pressed) :
    runEvents is s = runEvents (is.filter fun i => !i.isButton) s := by
  induction is generalizing s with
  | nil => rfl
  | cons i is ih =>
    obtain ⟨⟨-, -, hi⟩, hrest⟩ := keepsLatch_cons.mp h
    cases hb : i.isButton with
    | true =>
      rw [List.filter_cons_of_neg (by simp [hb]), runEvents_cons,
        exec_button_closed hb hi (buttonGate_eq_false (.inr hl)), andThen_next, ih hrest hl]
    | false =>
      rw [List.filter_cons_of_pos (by simp [hb]), runEvents_cons, runEvents_cons]
      cases hx : exec i s with
      | next u =>
        obtain ⟨hrest, hlu⟩ := h.after_exec hl hx
        exact ih hrest hlu
      | fault e => rfl
      | refused e => rfl

end Debounce

/-- Settles O25: an accepted press sets the latch, and until it is released the gate drops every press. -/
theorem debounceAcceptsOnePress : Obligations.DebounceAcceptsOnePress :=
  ⟨fun _ _ _ hb hg h => (exec_button_next hb h).latch_of_open hg,
    fun _ _ hl h => ⟨runEvents_filter_isButton h hl, fun _ => runEvents_latch_pressed h hl⟩⟩

end Sys2Proof.Machine

/-! ### The arbiter's transition table (42_arbiter R150) -/

namespace Sys2Proof.Machine

section Table

variable {s t : State} {i : Instr}

theorem Invariant.recording_iff_arb (h : Invariant s) : s.eng = .recording ↔ s.arb = .recording := by
  obtain ⟨-, -, harb, -⟩ := engineTagFixesTheChannels s h
  exact harb

theorem Invariant.playing_iff_arb (h : Invariant s) : s.eng = .playing ↔ s.arb = .playing := by
  obtain ⟨-, -, -, -, -, harb, -⟩ := engineTagFixesTheChannels s h
  exact harb

theorem cdone_arb (h : cdone s = .next t) : t.arb = .idle := by
  obtain ⟨sl, n, vs, fs, -, -, -, rfl⟩ := cdone_next h
  rfl

theorem hasCode_of_psLen {sl : SlotRef} {n : Word} (h : psLen s sl = .ok n) :
    hasCode s sl = decide (0 < n.toNat) := by
  simp [hasCode, h]

theorem lastPeriod_iff {sl : SlotRef} {n c : Word} (hs : s.slot = some sl) (hn : psLen s sl = .ok n)
    (hc : s.cur = some c) : lastPeriod s = true ↔ n = c := by
  simp [lastPeriod, hs, hn, hc, Except.toOption]

/-- The table's rows of the buttons need an accepted press (R136). -/
theorem arbAfter_of_closed (hb : i.isButton = true) (hg : buttonGate s = false) : arbAfter s i = s.arb := by
  cases i with
  | key _ | copy | ok | mode => simp [arbAfter, hg]
  | por | edge _ | env | settle | tmo | sleep => cases hb

theorem ButtonNext.arb (h : Invariant s) (hb : i.isButton = true) (hn : ButtonNext s i t) : t.arb = arbAfter s i := by
  cases hn with
  | dropped hg => exact (arbAfter_of_closed hb hg).symm
  | ignored hg hi ha => obtain rfl | ⟨k, rfl⟩ := hi <;> simp [arbAfter, ha]
  | cancels hg hi ha hd =>
    have harb : s.arb = .recording := h.recording_iff_arb.mp (h.recording_of_buttonGate hg ha)
    rw [cdone_arb hd]
    obtain rfl | rfl := hi <;> simp [arbAfter, hg, harb]
  | records hg ha hc => simp [arbAfter, hg, ha, hc]
  | plays hg ha hc hn hpos hv => simp [arbAfter, hg, ha, hc, hasCode_of_psLen hn, hpos]
  | noCode hg ha hc hn => simp [arbAfter, hg, ha, hc, hasCode_of_psLen hn]
  | advances hg ha => simp [arbAfter, hg, ha]
  | toggles hg ha | leaves hg ha _ | stays hg ha _ =>
    have harb : s.arb ≠ .recording := fun e => by simp [inIdle_of_recording e] at ha
    simp [arbAfter, harb]

theorem execEdge_arb {cnt : Word} (h : Invariant s) (hx : execEdge cnt s = .next t) :
    t.arb = arbAfter s (.edge cnt) := by
  obtain ⟨ha, rfl⟩ | ⟨u, sl, n, old, vs, he, -, hh, rfl, hu, hend⟩ := h.execEdge_next hx
  · have harb : t.arb ≠ .recording := by simp [← h.recording_iff_arb, h.recording_iff_caparm, ha]
    simp [arbAfter, harb]
  · have harb : s.arb = .recording := h.recording_iff_arb.mp he
    have hsucc : n.toNat + 1 = (n + 1).toNat := by
      rw [← hh.count, ← hu.count, List.length_append, List.length_singleton]
    have hrow : arbAfter s (.edge cnt) = if (n + 1).toNat = s.cfg.cap then .idle else .recording := by
      simp only [arbAfter, harb, hh.ecnt, Option.map_some, hsucc, Option.some.injEq, true_and]
    obtain ⟨hlt, rfl⟩ | ⟨hfull, hd⟩ := hend
    · rw [hrow, if_neg hlt.ne]
      exact harb
    · rw [hrow, if_pos hfull, cdone_arb hd]

theorem execEnv_arb (h : Invariant s) (hx : execEnv s = .next t) : t.arb = arbAfter s .env := by
  obtain ⟨he, rfl⟩ | ⟨sl, c, n, he, hs, hc, hn, hend⟩ := h.execEnv_next hx
  · have harb : t.arb ≠ .playing := by simp [← h.playing_iff_arb, h.playing_iff_enven, he]
    simp [arbAfter, harb]
  · have harb : s.arb = .playing := h.playing_iff_arb.mp he
    obtain ⟨hlt, v, -, rfl⟩ | ⟨hlast, rfl⟩ := hend
    · have hne : n ≠ c := fun e => hlt.ne (congrArg BitVec.toNat e.symm)
      simp [arbAfter, lastPeriod_iff hs hn hc, hne]
    · simp [arbAfter, harb, lastPeriod_iff hs hn hc, (BitVec.eq_of_toNat_eq hlast).symm]

theorem execTmo_arb (h : Invariant s) (hx : execTmo s = .next t) : t.arb = arbAfter s .tmo := by
  obtain ⟨he, hd⟩ | ⟨he, rfl⟩ := execTmo_next hx
  · simp [arbAfter, h.recording_iff_arb.mp he, cdone_arb hd]
  · simp [arbAfter, mt h.recording_iff_arb.mpr he]

/-- A parked main flow is not in `ModeDisplay`, so SLEEP leaves it from there (R57, R160). -/
theorem execSleep_arb (h : Invariant s) (hx : execSleep s = .next t) : t.arb = arbAfter s .sleep := by
  obtain ⟨-, rfl⟩ | ⟨hw, rfl⟩ := execSleep_next hx
  · rfl
  · have harb : t.arb ≠ .modeDisplay := fun e => by simp [h.awakeDisplay e] at hw
    simp [arbAfter, harb]

end Table

/-- Settles O41: the arbiter's state after each event, row by row. -/
theorem arbiterFollowsTheTransitionTable : Obligations.ArbiterFollowsTheTransitionTable := by
  intro s t i h hx
  cases i with
  | por | settle => cases hx; rfl
  | edge cnt => exact execEdge_arb h hx
  | env => exact execEnv_arb h hx
  | tmo => exact execTmo_arb h hx
  | sleep => exact execSleep_arb h hx
  | key _ | copy | ok | mode => exact (exec_button_next rfl hx).arb h rfl

end Sys2Proof.Machine

/-! ### The system events and the wake flag (43_system R160, R161, R162) -/

namespace Sys2Proof.Machine

/-- Settles O14: the event's one write, of the power-on state over the store, the parameters and the stream held. -/
theorem porLeavesTheResetTable : Obligations.PorLeavesTheResetTable := fun _ => rfl

/-- Settles O16: a parked main flow changes nothing, an awake one parks. -/
theorem sleepParksTheMainFlow : Obligations.SleepParksTheMainFlow :=
  fun _ => ⟨fun hw => if_neg (by simp [hw]), fun hw => if_pos hw⟩

/-- An accepted MODE press outside a recording, which wakes the main flow (R144, D11). -/
def WakingPress (i : Instr) (s : State) : Prop := i = .mode ∧ s.btnie = true ∧ s.latch = .ready ∧ s.eng = .idle

/-- `WAKE` after the event `i` from `s` to `t` is what R162 says. -/
def WakeRule (i : Instr) (s t : State) : Prop :=
  t.wake = true ↔ (s.wake = true ∧ i ≠ .sleep ∧ i ≠ .por) ∨ Completes i s t ∨ WakingPress i s

section Wake

variable {s t : State} {i : Instr}

/-- An event that neither clears `WAKE` nor ends an engine nor is a waking press leaves `WAKE`. -/
theorem wakeRule_of_leaves (hs : i ≠ .sleep) (hp : i ≠ .por) (hm : ¬ WakingPress i s) (hw : t.wake = s.wake)
    (he : t.eng = .idle → s.eng = .idle) : WakeRule i s t := by
  have hends : ¬ Completes i s t := fun ⟨_, hrun, hidle⟩ => hrun (he hidle)
  simp [WakeRule, hs, hp, hm, hw, hends]

/-- An event that ends an engine sets `WAKE`. -/
theorem wakeRule_of_ends (hp : i ≠ .por) (hrun : s.eng ≠ .idle) (hidle : t.eng = .idle) (hw : t.wake = true) :
    WakeRule i s t :=
  iff_of_true hw (.inr (.inl ⟨hp, hrun, hidle⟩))

/-- CDONE stops the Capture Engine and wakes the main flow (R106). -/
theorem cdone_wakes (h : cdone s = .next t) : t.eng = .idle ∧ t.wake = true := by
  obtain ⟨sl, n, vs, fs, -, -, -, rfl⟩ := cdone_next h
  exact ⟨rfl, rfl⟩

/-- An event that ends a recording by CDONE, from some state of that recording. -/
theorem wakeRule_of_cdone {u : State} (hp : i ≠ .por) (he : s.eng = .recording) (hd : cdone u = .next t) :
    WakeRule i s t := by
  obtain ⟨hidle, hw⟩ := cdone_wakes hd
  exact wakeRule_of_ends hp (by simp [he]) hidle hw

theorem Invariant.idle_of_inIdle (h : Invariant s) (ha : inIdle s = true) : s.eng = .idle := by
  obtain ⟨he, -⟩ | ⟨-, d⟩ | ⟨-, d⟩ := h.eng_cases
  · exact he
  · simp [inIdle, d.arb] at ha
  · simp [inIdle, d.arb] at ha

theorem execEdge_wakeRule {cnt : Word} (h : Invariant s) (hx : execEdge cnt s = .next t) : WakeRule (.edge cnt) s t := by
  obtain ⟨-, rfl⟩ | ⟨u, sl, n, old, vs, he, -, -, rfl, -, ⟨-, rfl⟩ | ⟨-, hd⟩⟩ := h.execEdge_next hx
  · exact wakeRule_of_leaves nofun nofun nofun rfl id
  · exact wakeRule_of_leaves nofun nofun nofun rfl id
  · exact wakeRule_of_cdone nofun he hd

theorem execEnv_wakeRule (h : Invariant s) (hx : execEnv s = .next t) : WakeRule .env s t := by
  obtain ⟨-, rfl⟩ | ⟨sl, c, n, he, -, -, -, ⟨-, v, -, rfl⟩ | ⟨-, rfl⟩⟩ := h.execEnv_next hx
  · exact wakeRule_of_leaves nofun nofun nofun rfl id
  · exact wakeRule_of_leaves nofun nofun nofun rfl id
  · exact wakeRule_of_ends nofun (by simp [he]) rfl rfl

theorem execTmo_wakeRule (hx : execTmo s = .next t) : WakeRule .tmo s t := by
  obtain ⟨he, hd⟩ | ⟨-, rfl⟩ := execTmo_next hx
  · exact wakeRule_of_cdone nofun he hd
  · exact wakeRule_of_leaves nofun nofun nofun rfl id

/-- SLEEP leaves the main flow parked and the engine as it was (R160). -/
theorem execSleep_wakeRule (hx : execSleep s = .next t) : WakeRule .sleep s t := by
  have hparked : t.wake = false ∧ t.eng = s.eng := by
    obtain ⟨-, rfl⟩ | ⟨hw, rfl⟩ := execSleep_next hx
    · exact ⟨rfl, rfl⟩
    · exact ⟨hw, rfl⟩
  obtain ⟨hw, he⟩ := hparked
  simp [WakeRule, Completes, WakingPress, hw, he]

/-- Of the button events a cancel ends a recording, and an accepted MODE press that does not meet a recording wakes. -/
theorem ButtonNext.wakeRule (h : Invariant s) (hs : i ≠ .sleep) (hp : i ≠ .por) (hn : ButtonNext s i t) :
    WakeRule i s t := by
  cases hn with
  | dropped hg =>
    have hm : ¬ WakingPress i s := fun ⟨_, hb, hl, _⟩ => by simp [buttonGate_iff.mpr ⟨hb, hl⟩] at hg
    exact wakeRule_of_leaves hs hp hm rfl id
  | ignored hg _ ha =>
    have hm : ¬ WakingPress i s := fun ⟨_, _, _, he⟩ => by simp [h.recording_of_buttonGate hg ha] at he
    exact wakeRule_of_leaves hs hp hm rfl id
  | cancels hg _ ha hd => exact wakeRule_of_cdone hp (h.recording_of_buttonGate hg ha) hd
  | records _ _ _ | plays _ _ _ _ _ _ => exact wakeRule_of_leaves hs hp nofun rfl nofun
  | noCode _ _ _ _ | toggles _ _ | leaves _ _ _ | stays _ _ _ => exact wakeRule_of_leaves hs hp nofun rfl id
  | advances hg ha =>
    obtain ⟨hb, hl⟩ := buttonGate_iff.mp hg
    exact iff_of_true rfl (.inr (.inr ⟨rfl, hb, hl, h.idle_of_inIdle ha⟩))

end Wake

/-- Settles O40: the wake flag after each event. -/
theorem wakeFlagFollowsItsRule : Obligations.WakeFlagFollowsItsRule := by
  intro s t i h hx
  change WakeRule i s t
  cases i with
  | por =>
    cases hx
    simp [WakeRule, Completes, WakingPress, powerOn]
  | settle =>
    cases hx
    exact wakeRule_of_leaves nofun nofun nofun rfl id
  | edge cnt => exact execEdge_wakeRule h hx
  | env => exact execEnv_wakeRule h hx
  | tmo => exact execTmo_wakeRule hx
  | sleep => exact execSleep_wakeRule hx
  | key _ | copy | ok | mode => exact (exec_button_next rfl hx).wakeRule h nofun nofun

end Sys2Proof.Machine

/-! ### Events at a closed gate (60_exceptions R172, R173) -/

namespace Sys2Proof.Machine

/-- Settles O18: EDGE and ENV test their enable bit, the button events test ACCEPT, and the other sources' gates never close. -/
theorem closedGateDropsTheEvent : Obligations.ClosedGateDropsTheEvent := by
  intro s i hi hg
  cases i with
  | edge cnt => exact execEdge_unarmed hg
  | env => exact execEnv_disabled hg
  | key _ | copy | ok | mode => exact exec_button_closed rfl hi hg
  | por | settle | tmo | sleep => cases hg

end Sys2Proof.Machine

/-! ### Every event completes (70_reset_and_hazards R214; 10_state R56) -/

namespace Sys2Proof.Machine

/-- The event has a next state: it neither stops with a fault nor is refused. -/
def Answers (r : Result) : Prop := ∃ t, r = .next t

theorem answers_next (t : State) : Answers (.next t) := ⟨t, rfl⟩

theorem ite_answers {p : Prop} [Decidable p] {r r' : Result} (h : p → Answers r) (h' : ¬ p → Answers r') :
    Answers (if p then r else r') := by
  split
  · exact h ‹_›
  · exact h' ‹_›

theorem withRead_answers {r : Except Fault Word} {v : Word} {f : Word → Result} (hr : r = .ok v) (hf : Answers (f v)) :
    Answers (withRead r f) :=
  hr ▸ hf

/-- The slot reference is one the parameters allow (R25). -/
abbrev SlotRef.InInstance (sl : SlotRef) (c : Config) : Prop := sl.m < c.nmodes ∧ sl.k < c.nkeys

/-- The bounds under which every event completes: the parameters', the mode's (R21), the launch premise on the slots (R47),
and those of `SLOT` and `ECNT` where they hold a value (R25, R26). -/
structure InBounds (s : State) : Prop where
  params : s.cfg.Ok
  modeRange : s.mode < s.cfg.nmodes
  slots : ∀ m k, m < s.cfg.nmodes → k < s.cfg.nkeys → slotOk s ⟨m, k⟩ = true
  slot : ∀ sl, s.slot = some sl → sl.InInstance s.cfg
  ecnt : ∀ n, s.ecnt = some n → n.toNat ≤ s.cfg.cap

section Completes

variable {s t : State} {sl : SlotRef} {n : Word}

/-! #### What keeps the bounds -/

/-- The bounds speak of the parameters, the mode, the store, `SLOT` and `ECNT` alone. -/
theorem InBounds.of_eq (h : InBounds s) (hc : t.cfg = s.cfg) (hm : t.mode = s.mode) (hp : t.ps = s.ps)
    (hs : ∀ sl, t.slot = some sl → sl.InInstance s.cfg)
    (hn : ∀ n, t.ecnt = some n → n.toNat ≤ s.cfg.cap) : InBounds t where
  params := hc ▸ h.params
  modeRange := by rw [hc, hm]; exact h.modeRange
  slots m k := by rw [hc, slotOk_congr hc hp]; exact h.slots m k
  slot := by rw [hc]; exact hs
  ecnt := by rw [hc]; exact hn

theorem InBounds.after_press (h : InBounds s) : InBounds (press s) := h.of_eq rfl rfl rfl h.slot h.ecnt

theorem InBounds.after_reports (h : InBounds s) (fs : List ReadFault) : InBounds (reportFaults fs s) :=
  h.of_eq rfl rfl rfl h.slot h.ecnt

theorem InBounds.with_oldc (h : InBounds s) (v : Word) : InBounds { s with oldc := some v } :=
  h.of_eq rfl rfl rfl h.slot h.ecnt

theorem InBounds.with_ecnt (h : InBounds s) (hn : n.toNat ≤ s.cfg.cap) : InBounds { s with ecnt := some n } :=
  h.of_eq rfl rfl rfl h.slot fun _ e => Option.some.inj e ▸ hn

theorem InBounds.with_slot (h : InBounds s) (hs : sl.InInstance s.cfg) :
    InBounds { s with slot := some sl } :=
  h.of_eq rfl rfl rfl (fun _ e => Option.some.inj e ▸ hs) h.ecnt

/-- A slot in range has a length, and a value in each interval below it (R47). -/
theorem InBounds.reads (h : InBounds s) (hs : sl.InInstance s.cfg) :
    ∃ n, psLen s sl = .ok n ∧ ∀ i, i < n.toNat → ∃ v, psIvl s sl i = .ok v := by
  obtain ⟨n, hn, -, hivl⟩ := slotOk_iff.mp (h.slots sl.m sl.k hs.1 hs.2)
  exact ⟨n, hn, hivl⟩

/-! #### Reads: held or free, the value is within the bounds (log entry 3) -/

theorem InBounds.readSlot_answers {f : SlotRef → State → Result} (h : InBounds s)
    (hf : ∀ sl fs, sl.InInstance s.cfg → InBounds { reportFaults fs s with slot := some sl } →
      Answers (f sl { reportFaults fs s with slot := some sl })) : Answers (readSlot s f) := by
  obtain ⟨sl, fs, e, hread⟩ := readSlot_cases (s := s) (f := f)
  have hs : sl.InInstance s.cfg := by
    obtain ⟨hheld, -⟩ | ⟨-, rfl, -⟩ := hread
    · exact h.slot sl hheld
    · exact freeSlot_bounds h.params _
  exact e ▸ hf sl fs hs ((h.after_reports fs).with_slot hs)

theorem InBounds.readEcnt_answers {f : Word → State → Result} (h : InBounds s)
    (hf : ∀ n fs, n.toNat ≤ s.cfg.cap → InBounds { reportFaults fs s with ecnt := some n } →
      Answers (f n { reportFaults fs s with ecnt := some n })) : Answers (readEcnt s f) := by
  obtain ⟨n, fs, e, hread⟩ := readEcnt_cases (s := s) (f := f)
  have hn : n.toNat ≤ s.cfg.cap := by
    obtain ⟨hheld, -⟩ | ⟨-, rfl, -⟩ := hread
    · exact h.ecnt n hheld
    · exact freeCount_le_cap h.params _
  exact e ▸ hf n fs hn ((h.after_reports fs).with_ecnt hn)

theorem InBounds.readOldc_answers {f : Word → State → Result} (h : InBounds s)
    (hf : ∀ v fs, InBounds { reportFaults fs s with oldc := some v } →
      Answers (f v { reportFaults fs s with oldc := some v })) : Answers (readOldc s f) := by
  obtain ⟨v, fs, e, -⟩ := readOldc_cases (s := s) (f := f)
  exact e ▸ hf v fs ((h.after_reports fs).with_oldc v)

/-! #### Each event's arm -/

/-- An unlocked write inside the store answers, so what follows it decides (R66). -/
theorem andThen_memWrite_answers {a : Nat} {vs : List Word} {f : State → Result} (hu : s.nvmwp = false)
    (hr : inStore s.cfg a vs.length = true) (hf : Answers (f { s with ps := s.ps.writeRun s.cfg a vs })) :
    Answers (andThen (memWrite s a vs) f) := by
  rwa [memWrite_of_room hu hr]

/-- The slot write completes where the slot's record lies in the store: CDONE has unlocked the store (R106). -/
theorem storeSlot_answers {vs : List Word} (hroom : inStore s.cfg (psAddr s.cfg sl) (vs.length + 1) = true) :
    Answers (storeSlot sl n vs s) := by
  obtain ⟨hlo, hhi⟩ := inStore_iff.mp hroom
  have hivl : inStore s.cfg (psAddr s.cfg sl + 1) vs.length = true := inStore_iff.mpr (by omega)
  have hlen : inStore s.cfg (psAddr s.cfg sl) 1 = true := inStore_iff.mpr (by omega)
  exact andThen_memWrite_answers (unlock_nvmwp s) hivl (andThen_memWrite_answers (unlock_nvmwp s) hlen (answers_next _))

/-- CDONE completes: a slot in range has room for the count (R63, R106). -/
theorem InBounds.cdone_answers (h : InBounds s) : Answers (cdone s) := by
  refine h.readSlot_answers fun sl fs hs ht => ht.readEcnt_answers fun n fs' hn _ => ?_
  have hroom := inStore_psAddr h.params hs.1 hs.2 hn
  rw [← bufferPrefix_length s.rbuf n.toNat] at hroom
  exact storeSlot_answers hroom

/-- The append never takes the count above `CAP` (R103). -/
theorem InBounds.after_append (h : InBounds s) (d : Word) (n : Word) : InBounds (appendDelta d n s) := by
  by_cases hlt : n.toNat < s.cfg.cap
  · obtain ⟨-, hcap, -⟩ := h.params
    rw [appendDelta_below hlt]
    refine h.of_eq rfl rfl rfl h.slot fun _ e => Option.some.inj e ▸ ?_
    bv_omega
  · rwa [appendDelta_full hlt]

theorem InBounds.edgeFinish_answers (h : InBounds s) (cnt : Word) : Answers (edgeFinish cnt s) :=
  h.readEcnt_answers fun _ _ _ ht => ite_answers (fun _ => (ht.with_oldc cnt).cdone_answers) fun _ => answers_next _

theorem InBounds.execEdge_answers (h : InBounds s) (cnt : Word) : Answers (execEdge cnt s) := by
  refine ite_answers (fun _ => ?_) fun _ => answers_next s
  refine h.readOldc_answers fun old _ ht => ht.readEcnt_answers fun n _ _ hu => ?_
  exact (hu.after_append (captureDelta cnt old) n).edgeFinish_answers cnt

theorem InBounds.execEnv_answers (h : InBounds s) : Answers (execEnv s) := by
  refine ite_answers (fun _ => h.readSlot_answers fun sl fs hs ht => ?_) fun _ => answers_next s
  obtain ⟨n, hn, hivl⟩ := ht.reads hs
  obtain ⟨i, fs', e, -⟩ := readCur_cases (n := n) (s := { reportFaults fs s with slot := some sl })
  refine withRead_answers hn (e ▸ ite_answers (fun hi => ?_) fun _ => answers_next _)
  obtain ⟨v, hv⟩ := hivl i.toNat hi
  exact withRead_answers ((psIvl_congr rfl rfl).trans hv) (answers_next _)

theorem InBounds.keyPlay_answers (h : InBounds s) (hs : sl.InInstance s.cfg) :
    Answers (keyPlay sl s) := by
  obtain ⟨n, hn, hivl⟩ := h.reads hs
  by_cases hpos : 0 < n.toNat
  · obtain ⟨v, hv⟩ := hivl 0 hpos
    exact keyPlay_of_code hn hpos hv ▸ answers_next _
  · have hzero : n = 0 := BitVec.eq_of_toNat_eq (Nat.eq_zero_of_not_pos hpos)
    exact keyPlay_of_noCode (hzero ▸ hn) ▸ answers_next _

theorem InBounds.button_answers {i : Instr} (h : InBounds s) (hb : i.isButton = true) (hi : WellFormed s.cfg i) :
    Answers (exec i s) := by
  cases hg : buttonGate s with
  | false => exact ⟨s, exec_button_closed hb hi hg⟩
  | true =>
    cases i with
    | key k =>
      have hk : k.toNat < s.cfg.nkeys := of_decide_eq_true hi
      rw [execKey_open hk hg]
      refine ite_answers (fun _ => ite_answers (fun _ => answers_next _) fun _ => ?_) fun _ => answers_next _
      exact h.after_press.keyPlay_answers ⟨h.modeRange, hk⟩
    | copy =>
      rw [execCopy_open hg]
      exact ite_answers (fun _ => answers_next _) fun _ => h.after_press.cdone_answers
    | ok =>
      rw [execOk_open hg]
      exact ite_answers (fun _ => ite_answers (fun _ => answers_next _) fun _ => answers_next _)
        fun _ => h.after_press.cdone_answers
    | mode =>
      rw [execMode_open hg]
      exact ite_answers (fun _ => answers_next _) fun _ => answers_next _
    | por | edge _ | env | settle | tmo | sleep => cases hb

/-- Every well-formed event answers within the bounds (R214, D25). -/
theorem InBounds.exec_answers {i : Instr} (h : InBounds s) (hi : WellFormed s.cfg i) : Answers (exec i s) := by
  cases i with
  | por | settle => exact answers_next _
  | edge cnt => exact h.execEdge_answers cnt
  | env => exact h.execEnv_answers
  | tmo => exact ite_answers (fun _ => h.cdone_answers) fun _ => answers_next s
  | sleep => exact ite_answers (fun _ => answers_next _) fun _ => answers_next s
  | key _ | copy | ok | mode => exact h.button_answers rfl hi

/-- The invariants keep `SLOT` in the current mode and `ECNT` below `CAP` where they hold a value (R51, R139). -/
theorem Invariant.inBounds (h : Invariant s) : InBounds s where
  params := h.params
  modeRange := h.modeRange
  slots := h.slots
  slot sl hs := by
    obtain ⟨-, d⟩ | ⟨-, d⟩ | ⟨-, d⟩ := h.eng_cases
    · cases d.slot.symm.trans hs
    · obtain ⟨k, hk, hslot⟩ := d.slot
      cases hslot.symm.trans hs
      exact ⟨h.modeRange, hk⟩
    · obtain ⟨k, -, -, -, hk, hslot, -⟩ := d.cursor
      cases hslot.symm.trans hs
      exact ⟨h.modeRange, hk⟩
  ecnt n hn := by
    obtain ⟨-, d⟩ | ⟨-, d⟩ | ⟨-, d⟩ := h.eng_cases
    · cases d.ecnt.symm.trans hn
    · obtain ⟨n', -, hecnt, hlt, -⟩ := d.buffer
      cases hecnt.symm.trans hn
      exact hlt.le
    · cases d.ecnt.symm.trans hn

end Completes

/-- Settles O36: the invariants imply the bounds under which every event answers; they report no fault, and a free value is
taken only with a fault. -/
theorem everyEventCompletes : Obligations.EveryEventCompletes := by
  intro s i h hi
  obtain ⟨t, hx⟩ := h.inBounds.exec_answers hi
  have hr : t.readFaults = s.readFaults := h.exec_readFaults hx
  obtain ⟨fs, hfs, hfresh⟩ := exec_reports hx
  obtain rfl : fs = [] := List.self_eq_append_right.mp (hr.symm.trans hfs)
  exact ⟨t, hx, hr, hfresh⟩

/-- Settles O49: the hypotheses are the bounds under which every event answers. -/
theorem eventsCompleteWithoutValues : Obligations.EventsCompleteWithoutValues :=
  fun _ _ hparams hmode hslots hslot hecnt hi => (InBounds.mk hparams hmode hslots hslot hecnt).exec_answers hi

end Sys2Proof.Machine

/-! ### A playback ignores the buttons (70_reset_and_hazards R204) -/

namespace Sys2Proof.Machine

section Playback

variable {s t : State} {i : Instr}

/-- A button event with its gate closed answers nothing but the same state (R136). -/
theorem ButtonNext.eq_of_closed (hn : ButtonNext s i t) (hg : buttonGate s = false) : t = s := by
  cases hn with
  | dropped _ => rfl
  | ignored hopen _ _ | cancels hopen _ _ _ | records hopen _ _ | plays hopen _ _ _ _ _ | noCode hopen _ _ _
  | toggles hopen _ | leaves hopen _ _ | stays hopen _ _ | advances hopen _ => simp [hg] at hopen

/-- In a playback the buttons and the capture channel are off, so only ENV and POR touch the engine (R53, R54, R204). -/
theorem PlayingData.exec_eng (d : PlayingData s) (he : s.eng = .playing) (hx : exec i s = .next t) (henv : i ≠ .env)
    (hpor : i ≠ .por) : t.eng = .playing := by
  cases i with
  | env => exact absurd rfl henv
  | por => exact absurd rfl hpor
  | settle =>
    cases hx
    exact he
  | sleep => obtain ⟨-, rfl⟩ | ⟨-, rfl⟩ := execSleep_next hx <;> exact he
  | edge cnt =>
    cases (execEdge_unarmed d.caparm).symm.trans hx
    exact he
  | tmo =>
    obtain ⟨hrec, -⟩ | ⟨-, rfl⟩ := execTmo_next hx
    · simp [he] at hrec
    · exact he
  | key _ | copy | ok | mode =>
    exact (exec_button_next rfl hx).eq_of_closed (buttonGate_eq_false (.inl d.btnie)) ▸ he

end Playback

/-- Settles O32: a playback holds the button gate closed, and no other event ends it. -/
theorem playbackIgnoresButtons : Obligations.PlaybackIgnoresButtons := by
  intro s h he
  have d := h.playing he
  refine ⟨fun i hb hi => exec_button_closed hb hi (buttonGate_eq_false (.inl d.btnie)), fun i t hx => ?_⟩
  by_cases hi : i = .env ∨ i = .por
  · exact .inr hi
  · obtain ⟨henv, hpor⟩ := not_or.mp hi
    exact .inl (d.exec_eng he hx henv hpor)

end Sys2Proof.Machine

/-! ### Launch (70_reset_and_hazards R202, R216; 10_state R47) -/

namespace Sys2Proof.Machine

/-- The launch premise on the store, slot by slot (R47, R202). -/
theorem storeOk_iff {s : State} :
    storeOk s = true ↔
      s.ps.wf s.cfg = true ∧ ∀ m k, m < s.cfg.nmodes → k < s.cfg.nkeys → slotOk s ⟨m, k⟩ = true := by
  simp only [storeOk, Bool.and_eq_true, List.all_eq_true, List.mem_range]
  exact and_congr_right fun _ => ⟨fun h m k hm hk => h m hm k hk, fun h m hm k hk => h m k hm hk⟩

section Launch

variable {c : Config} {es : List EventWord} {ps : Memory}

/-- The power-on state is idle, so of the invariants it leaves the launch premises to be met. -/
theorem invariant_powerOn_iff : Invariant (powerOn c es ps) ↔ c.Ok ∧ storeOk (powerOn c es ps) = true := by
  refine ⟨fun h => ⟨h.params, storeOk_iff.mpr ⟨h.storeWf, h.slots⟩⟩, fun ⟨hc, hs⟩ => ?_⟩
  obtain ⟨hwf, hslots⟩ := storeOk_iff.mp hs
  have ⟨_, _, _, _, hmode, _⟩ := hc
  exact {
    params := hc
    modeRange := hmode
    storeWf := hwf
    slots := hslots
    idle _ := ⟨.inl rfl, rfl, rfl, rfl, rfl, rfl, rfl, rfl, rfl, rfl, rfl, rfl⟩
    recording h := nomatch h
    playing h := nomatch h
    locked := rfl
    awakeDisplay h := nomatch h }

/-- A launch whose power-on state meets the invariants is taken (R202, R216). -/
theorem launch_of_invariant (h : Invariant (powerOn c es ps)) : launch c es ps = .next (powerOn c es ps) :=
  if_pos (invariant_powerOn_iff.mp h)

/-- Any other launch is refused (U14; log entry 15). -/
theorem launch_of_not_invariant (h : ¬ Invariant (powerOn c es ps)) : launch c es ps = .refused .badLaunch :=
  if_neg (mt invariant_powerOn_iff.mpr h)

theorem launch_next {t : State} (h : launch c es ps = .next t) : t = powerOn c es ps ∧ Invariant t := by
  by_cases hinv : Invariant (powerOn c es ps)
  · cases (launch_of_invariant hinv).symm.trans h
    exact ⟨rfl, hinv⟩
  · cases (launch_of_not_invariant hinv).symm.trans h

/-- A store never written meets the launch premise: each of its slots has length 0 (R47). -/
theorem storeOk_of_ps_nil (hc : c.Ok) : storeOk (powerOn c es []) = true :=
  storeOk_iff.mpr ⟨rfl, fun _ _ hm hk => slotOk_of_psLen_zero (psLen_of_ps_nil rfl hc hm hk)⟩

end Launch

/-- Settles O44: a launch is taken exactly where the power-on state meets the invariants, and parameters out of their bounds or
a slot longer than `CAP` break them. -/
theorem launchMeetsTheInvariants : Obligations.LaunchMeetsTheInvariants := by
  refine fun c es ps => ⟨fun t => launch_next, fun hc hs => launch_of_invariant (invariant_powerOn_iff.mpr ⟨hc, hs⟩),
    launch_of_invariant, fun hc => launch_of_invariant (invariant_powerOn_iff.mpr ⟨hc, storeOk_of_ps_nil hc⟩),
    fun hc => launch_of_not_invariant (mt Invariant.params hc), fun m k n hm hk hn hlong => ?_⟩
  refine launch_of_not_invariant fun h => ?_
  obtain ⟨n', hn', hcap, -⟩ := slotOk_iff.mp (h.slots m k hm hk)
  cases hn.symm.trans hn'
  exact Nat.not_lt.mpr hcap hlong

end Sys2Proof.Machine

/-! ### The physical figures (00_scope R8, 70_reset_and_hazards R215) -/

namespace Sys2Proof.Machine

/-! #### Maps of the state that an event commutes with -/

/-- An outcome with its next state, where it has one, taken through `g`. -/
def mapNext (g : State → State) (r : Result) : Result := andThen r fun t => .next (g t)

/-- `f` after `g` is `g` after `f`. -/
def Commutes (g : State → State) (f : State → Result) : Prop := ∀ s, f (g s) = mapNext g (f s)

section Commutes

variable {g : State → State} {f f' : State → Result}

theorem commutes_next {u : State → State} (h : ∀ s, u (g s) = g (u s)) : Commutes g fun s => .next (u s) :=
  fun s => congrArg Host.Outcome.next (h s)

theorem commutes_ite {p : State → Prop} [DecidablePred p] (hp : ∀ s, p (g s) ↔ p s) (hf : Commutes g f)
    (hf' : Commutes g f') : Commutes g fun s => if p s then f s else f' s := by
  intro s
  by_cases h : p s
  · simpa [h, (hp s).mpr h] using hf s
  · simpa [h, mt (hp s).mp h] using hf' s

theorem mapNext_withRead {r r' : Except Fault Word} {q q' : Word → Result} (hr : r = r')
    (hq : ∀ v, q v = mapNext g (q' v)) : withRead r q = mapNext g (withRead r' q') := by
  subst hr
  cases r with
  | ok v => exact hq v
  | error e => rfl

theorem mapNext_andThen {r r' : Result} (hr : r = mapNext g r') (hf : Commutes g f) :
    andThen r f = mapNext g (andThen r' f) := by
  subst hr
  cases r' with
  | next t => exact hf t
  | fault e => rfl
  | refused e => rfl

end Commutes

/-! #### Each operation commutes with other figures -/

section Physical

variable {hz duty : Nat} {tick settle : Option Nat} {s : State}

/-- The reads of a slot use the parameters of the store's layout alone (R63, R64). -/
theorem psLen_withPhysical (sl : SlotRef) : psLen (withPhysical hz duty tick settle s) sl = psLen s sl := rfl

theorem psIvl_withPhysical (sl : SlotRef) (i : Nat) :
    psIvl (withPhysical hz duty tick settle s) sl i = psIvl s sl i := rfl

theorem readElement_withPhysical {α : Type} {e : ReadFault} {get : State → Option α} {put : α → State → State}
    {free : Nat → α} {f : α → State → Result}
    (hget : get (withPhysical hz duty tick settle s) = get s)
    (hput : ∀ v t, put v (withPhysical hz duty tick settle t) = withPhysical hz duty tick settle (put v t))
    (hf : ∀ v, Commutes (withPhysical hz duty tick settle) (f v)) :
    readElement e get put free (withPhysical hz duty tick settle s) f =
      mapNext (withPhysical hz duty tick settle) (readElement e get put free s f) := by
  unfold readElement
  rw [hget]
  cases get s with
  | some v => exact hf v s
  | none =>
    change f _ (put _ (withPhysical hz duty tick settle (reportFaults [e] s))) = _
    rw [hput]
    exact hf _ _

/-- A write of the store uses the parameters for where the length units lie, and no more. -/
theorem memWrite_withPhysical (a : Nat) (vs : List Word) :
    Commutes (withPhysical hz duty tick settle) (memWrite · a vs) := by
  refine commutes_ite (fun _ => Iff.rfl) (fun _ => rfl) (commutes_ite (fun _ => Iff.rfl) ?_ fun _ => rfl)
  refine commutes_next fun s => ?_
  have hrun : s.ps.writeRun (withPhysical hz duty tick settle s).cfg a vs = s.ps.writeRun s.cfg a vs :=
    Memory.writeRun_congr fun _ => rfl
  simp only [withPhysical] at hrun ⊢
  rw [hrun]

/-- ACCEPT tests and writes no parameter. -/
theorem onAccept_withPhysical {f : State → Result} (hf : Commutes (withPhysical hz duty tick settle) f) :
    Commutes (withPhysical hz duty tick settle) (onAccept · f) := by
  intro s
  have hgate : buttonGate (withPhysical hz duty tick settle s) = buttonGate s := rfl
  dsimp only
  obtain ⟨hg, e⟩ | ⟨hg, e⟩ := onAccept_cases (s := s) (f := f)
  · rw [e, onAccept_open (hgate.trans hg)]
    exact hf (press s)
  · rw [e, onAccept_closed (hgate.trans hg)]
    rfl

theorem cdone_withPhysical : Commutes (withPhysical hz duty tick settle) cdone := by
  intro s
  unfold cdone
  refine readElement_withPhysical rfl (fun _ _ => rfl) fun sl t => ?_
  refine readElement_withPhysical rfl (fun _ _ => rfl) fun n u => ?_
  refine mapNext_andThen (memWrite_withPhysical _ _ (unlock (reportFaults _ u))) fun w => ?_
  exact mapNext_andThen (memWrite_withPhysical _ _ w) (commutes_next fun _ => rfl)

theorem appendDelta_withPhysical (d n : Word) (s : State) :
    appendDelta d n (withPhysical hz duty tick settle s) = withPhysical hz duty tick settle (appendDelta d n s) := by
  unfold appendDelta
  rw [apply_ite (withPhysical hz duty tick settle)]
  rfl

theorem edgeFinish_withPhysical (cnt : Word) : Commutes (withPhysical hz duty tick settle) (edgeFinish cnt) := by
  intro s
  unfold edgeFinish
  refine readElement_withPhysical rfl (fun _ _ => rfl) fun n => ?_
  exact commutes_ite (fun _ => Iff.rfl) (fun t => cdone_withPhysical { t with oldc := some cnt })
    (commutes_next fun _ => rfl)

theorem execEdge_withPhysical (cnt : Word) : Commutes (withPhysical hz duty tick settle) (execEdge cnt) := by
  refine commutes_ite (fun _ => Iff.rfl) (fun s => ?_) (commutes_next fun _ => rfl)
  refine readElement_withPhysical rfl (fun _ _ => rfl) fun old t => ?_
  refine readElement_withPhysical rfl (fun _ _ => rfl) fun n u => ?_
  rw [appendDelta_withPhysical]
  exact edgeFinish_withPhysical cnt _

theorem execEnv_withPhysical : Commutes (withPhysical hz duty tick settle) execEnv := by
  refine commutes_ite (fun _ => Iff.rfl) (fun s => ?_) (commutes_next fun _ => rfl)
  refine readElement_withPhysical rfl (fun _ _ => rfl) fun sl t => mapNext_withRead (psLen_withPhysical sl) fun n => ?_
  refine readElement_withPhysical rfl (fun _ _ => rfl) fun i => commutes_ite (fun _ => Iff.rfl) (fun u => ?_) ?_
  · exact mapNext_withRead (psIvl_withPhysical sl _) fun v => rfl
  · exact commutes_next fun _ => rfl

theorem keyPlay_withPhysical (sl : SlotRef) : Commutes (withPhysical hz duty tick settle) (keyPlay sl) := by
  refine fun s => mapNext_withRead (psLen_withPhysical sl) fun n => ?_
  split
  · exact mapNext_andThen (mapNext_withRead (psIvl_withPhysical sl 0) fun v => rfl) (commutes_next fun _ => rfl)
  · rfl

theorem execKey_withPhysical (k : Word) : Commutes (withPhysical hz duty tick settle) (execKey k) := by
  refine commutes_ite (fun _ => Iff.rfl) (onAccept_withPhysical ?_) fun _ => rfl
  refine commutes_ite (fun _ => Iff.rfl) ?_ (commutes_next fun _ => rfl)
  exact commutes_ite (fun _ => Iff.rfl) (commutes_next fun _ => rfl) fun s => keyPlay_withPhysical _ s

theorem execOk_withPhysical : Commutes (withPhysical hz duty tick settle) execOk :=
  onAccept_withPhysical <| commutes_ite (fun _ => Iff.rfl)
    (commutes_ite (fun _ => Iff.rfl) (commutes_next fun _ => rfl) (commutes_next fun _ => rfl)) cdone_withPhysical

/-- No event depends on the physical figures (R215). -/
theorem exec_withPhysical (i : Instr) : Commutes (withPhysical hz duty tick settle) (exec i) := by
  cases i with
  | por | settle => exact commutes_next fun _ => rfl
  | edge cnt => exact execEdge_withPhysical cnt
  | env => exact execEnv_withPhysical
  | key k => exact execKey_withPhysical k
  | copy =>
    exact onAccept_withPhysical (commutes_ite (fun _ => Iff.rfl) (commutes_next fun _ => rfl) cdone_withPhysical)
  | ok => exact execOk_withPhysical
  | mode =>
    exact onAccept_withPhysical
      (commutes_ite (fun _ => Iff.rfl) (commutes_next fun _ => rfl) (commutes_next fun _ => rfl))
  | tmo => exact commutes_ite (fun _ => Iff.rfl) cdone_withPhysical (commutes_next fun _ => rfl)
  | sleep => exact commutes_ite (fun _ => Iff.rfl) (commutes_next fun _ => rfl) (commutes_next fun _ => rfl)

end Physical

/-- Settles O47: every event commutes with writing other figures. -/
theorem physicalFiguresChangeNothing : Obligations.PhysicalFiguresChangeNothing :=
  fun s i _ _ _ _ => exec_withPhysical i s

end Sys2Proof.Machine

/-! ### The store after a recording keeps the launch premise and its canonical form (20_memory R67; 10_state R52) -/

namespace Sys2Proof.Machine

section Completion

variable {s t : State} {sl sl' : SlotRef} {n : Word} {vs : List Word}

theorem memReadUnit_of_read_eq {a : Nat} (hc : t.cfg = s.cfg) (hr : t.ps.read t.cfg a = s.ps.read s.cfg a) :
    memReadUnit t a = memReadUnit s a := by
  rw [memReadUnit, memReadUnit, hr, hc]

/-- The launch premise on a slot speaks of the units of its record alone (R63, R64). -/
theorem slotOk_of_read_eq (hc : t.cfg = s.cfg) (h : slotOk s sl = true)
    (hr : ∀ i ≤ s.cfg.cap, t.ps.read t.cfg (psAddr s.cfg sl + i) = s.ps.read s.cfg (psAddr s.cfg sl + i)) :
    slotOk t sl = true := by
  obtain ⟨n, hn, hcap, hivl⟩ := slotOk_iff.mp h
  refine slotOk_iff.mpr ⟨n, ?_, hc ▸ hcap, fun i hi => ?_⟩
  · rw [psLen, hc]
    exact (memReadUnit_of_read_eq hc (hr 0 (Nat.zero_le _))).trans hn
  · obtain ⟨v, hv⟩ := hivl i hi
    refine ⟨v, ?_⟩
    rw [psIvl, hc, Nat.add_assoc, memReadUnit_of_read_eq hc (hr (1 + i) (by omega)), ← Nat.add_assoc]
    exact hv

/-- A recording completed leaves the intervals it held in its slot. -/
theorem Holds.recorded (h : Holds s sl n vs) (hd : cdone s = .next t) : Recorded sl vs s t := by
  obtain ⟨m, hm, e⟩ : CaptureEnds s sl n vs (.next t) := hd ▸ cdone_ends h
  have hn : BitVec.ofNat 16 vs.length = n := by rw [h.count, BitVec.ofNat_toNat, BitVec.setWidth_eq]
  cases e
  exact ⟨rfl, rfl, rfl, rfl, hn.symm ▸ hm⟩

/-- After the slot write every slot meets the launch premise: the slot written holds what was recorded, and no other slot's
record meets its record (R52, R63, R67). -/
theorem Recorded.slotOk (h : Recorded sl vs s t) (hc : s.cfg.Ok) (hs : sl.InInstance s.cfg)
    (hlen : vs.length ≤ s.cfg.cap) (hs' : sl'.InInstance s.cfg) (hok : slotOk s sl' = true) : slotOk t sl' = true := by
  obtain ⟨hlength, hivl, hframe⟩ := h.reads (inStore_psAddr hc hs.1 hs.2 hlen)
  by_cases he : sl = sl'
  case pos =>
    subst he
    have hn := toNat_ofNat_length hc hlen
    exact slotOk_iff.mpr ⟨_, hlength, by rwa [hn, h.cfg], fun i hi => ⟨_, hivl i (hn ▸ hi)⟩⟩
  case neg =>
    obtain ⟨-, -, -, hdisjoint⟩ := slotRecordsNeverOverlap s.cfg hc sl hs.1 hs.2
    have hapart := hdisjoint sl' hs'.1 hs'.2 he
    exact slotOk_of_read_eq h.cfg hok fun i hi => hframe _ (by omega)

/-- The slot write of CDONE keeps the canonical form (R74; log entry 5). -/
theorem Holds.cdone_wf (h : Holds s sl n vs) (hd : cdone s = .next t) (hwf : s.ps.wf s.cfg = true) :
    t.ps.wf t.cfg = true := by
  obtain ⟨sl', n', vs', fs, hsl, hn, hcount, rfl⟩ := cdone_next hd
  obtain rfl := hsl sl h.slot
  obtain rfl := hn n h.ecnt
  obtain ⟨hlo, hhi⟩ := inStore_iff.mp h.room
  have hivl := Memory.wf_writeRun (vs := vs') hwf (Nat.le_succ_of_le hlo) (by omega)
  exact Memory.wf_writeRun hivl hlo (Nat.le_trans (by simp) hhi)

end Completion

end Sys2Proof.Machine

/-! ### Every event keeps the invariants (10_state section 5) -/

namespace Sys2Proof.Machine

/-- What the invariants ask whatever the engine does: of the parameters, the mode, the store and its lock (R8, R21, R47, R52,
R55). -/
structure Standing (s : State) : Prop where
  params : s.cfg.Ok
  modeRange : s.mode < s.cfg.nmodes
  storeWf : s.ps.wf s.cfg = true
  slots : ∀ m k, m < s.cfg.nmodes → k < s.cfg.nkeys → slotOk s ⟨m, k⟩ = true
  locked : s.nvmwp = true

section Keeps

variable {s t : State} {i : Instr} {sl : SlotRef} {n v : Word} {vs : List Word}

/-! #### The invariants by the engine's tag -/

/-- The standing part speaks of the parameters, the mode, the store and its lock alone. -/
theorem Invariant.standing (h : Invariant s) (hc : t.cfg = s.cfg) (hm : t.mode < s.cfg.nmodes) (hp : t.ps = s.ps)
    (hl : t.nvmwp = true) : Standing t where
  params := hc ▸ h.params
  modeRange := hc ▸ hm
  storeWf := by rw [hc, hp]; exact h.storeWf
  slots m k := by rw [hc, slotOk_congr hc hp]; exact h.slots m k
  locked := hl

theorem Standing.invariant_of_idle (h : Standing s) (he : s.eng = .idle) (d : IdleData s)
    (hw : s.arb = .modeDisplay → s.wake = true) : Invariant s :=
  { h with
    idle := fun _ => d
    recording := fun hr => nomatch he.symm.trans hr
    playing := fun hp => nomatch he.symm.trans hp
    awakeDisplay := hw }

theorem Standing.invariant_of_recording (h : Standing s) (he : s.eng = .recording) (d : RecordingData s) : Invariant s :=
  { h with
    idle := fun hi => nomatch he.symm.trans hi
    recording := fun _ => d
    playing := fun hp => nomatch he.symm.trans hp
    awakeDisplay := fun ha => nomatch d.arb.symm.trans ha }

theorem Standing.invariant_of_playing (h : Standing s) (he : s.eng = .playing) (d : PlayingData s) : Invariant s :=
  { h with
    idle := fun hi => nomatch he.symm.trans hi
    recording := fun hr => nomatch he.symm.trans hr
    playing := fun _ => d
    awakeDisplay := fun ha => nomatch d.arb.symm.trans ha }

/-! #### The latch, the wake flag and the display -/

/-- The invariants do not read the latch or the display, and the wake flag in the mode display alone (R57). -/
theorem Invariant.with_outputs (h : Invariant s) (l : Latch) (d : Option DispReq) {w : Bool}
    (hw : s.arb = .modeDisplay → w = true) : Invariant { s with latch := l, disp := d, wake := w } where
  params := h.params
  modeRange := h.modeRange
  storeWf := h.storeWf
  slots m k hm hk := (slotOk_congr rfl rfl).trans (h.slots m k hm hk)
  idle he := { h.idle he with }
  recording he := { h.recording he with }
  playing he := { h.playing he with }
  locked := h.locked
  awakeDisplay := hw

theorem Invariant.after_press (h : Invariant s) : Invariant (press s) := h.with_outputs .pressed s.disp h.awakeDisplay

/-- SLEEP leaves the mode display with the wake flag it clears (R57, R160). -/
theorem Invariant.after_park (h : Invariant s) : Invariant (park s) := by
  by_cases ha : s.arb = .modeDisplay
  case pos =>
    have he : s.eng = .idle := h.idle_of_inIdle (inIdle_iff.mpr (.inr ha))
    have hidle : (park s).arb = .idle := if_pos ha
    exact Standing.invariant_of_idle (h.standing rfl h.modeRange rfl h.locked) he { h.idle he with arb := .inl hidle }
      fun hd => nomatch hidle.symm.trans hd
  case neg =>
    have hpark : park s = { s with wake := false } := by simp [Machine.park, ha]
    exact hpark ▸ h.with_outputs s.latch s.disp fun hd => absurd hd ha

/-! #### The Capture Engine -/

/-- CSTART holds no interval yet (R101). -/
theorem Invariant.after_cstart (h : Invariant s) (he : s.eng = .idle) (hc : s.copy = true) (hm : sl.m = s.mode)
    (hk : sl.k < s.cfg.nkeys) : Invariant (setArb .recording (cstart sl s)) := by
  have d := h.idle he
  have ⟨hpos, _⟩ := h.params
  refine Standing.invariant_of_recording (h.standing rfl h.modeRange rfl h.locked) rfl ?_
  exact {
    arb := rfl, owner := rfl, caparm := rfl, carr := d.carr, enven := d.enven, btnie := d.btnie, copy := hc
    cur := d.cur, envp := d.envp, oldc := ⟨0, rfl⟩
    slot := ⟨sl.k, hk, hm ▸ rfl⟩
    buffer := ⟨0, [], rfl, hpos, rfl, d.rbuf⟩ }

/-- An edge below capacity adds one interval to those held (R103). -/
theorem RecordingData.after_append (d : RecordingData s) (hn : s.ecnt = some n) (hlt : (n + 1).toNat < s.cfg.cap)
    (hsucc : (n + 1).toNat = n.toNat + 1) (cnt v : Word) :
    RecordingData { s with rbuf := s.rbuf.set n.toNat (some v), ecnt := some (n + 1), oldc := some cnt } := by
  obtain ⟨n', vs, hn', hcap, hcount, hbuf⟩ := d.buffer
  cases hn.symm.trans hn'
  have hlen : (vs ++ [v]).length = (n + 1).toNat := by rw [List.length_append, List.length_singleton, hcount, hsucc]
  exact { d with
    oldc := ⟨cnt, rfl⟩
    buffer := ⟨n + 1, vs ++ [v], rfl, hlt, hlen, by
      rw [hbuf, ← hcount, set_append_replicate v (hcount ▸ hcap), hlen]⟩ }

/-- CDONE leaves the invariants from every state of a recording that holds at most `CAP` intervals, the full buffer among
them (R52, R106). -/
theorem Invariant.after_cdone {r : List (Option Word)} {e o : Option Word} {l : Latch} (h : Invariant s)
    (he : s.eng = .recording) (hh : Holds { s with rbuf := r, ecnt := e, oldc := o, latch := l } sl n vs)
    (hcap : n.toNat ≤ s.cfg.cap) (hd : cdone { s with rbuf := r, ecnt := e, oldc := o, latch := l } = .next t) :
    Invariant t := by
  have d := h.recording he
  have hsl : sl.InInstance s.cfg := h.inBounds.slot sl hh.slot
  have hrec := hh.recorded hd
  have hwf := hh.cdone_wf hd h.storeWf
  obtain ⟨m, -, heq⟩ : CaptureEnds _ sl n vs (.next t) := hd ▸ cdone_ends hh
  cases heq
  have hslots (m k : Nat) (hm : m < s.cfg.nmodes) (hk : k < s.cfg.nkeys) :=
    hrec.slotOk h.params hsl (hh.count.trans_le hcap) ⟨hm, hk⟩ (h.slots m k hm hk)
  refine Standing.invariant_of_idle ⟨h.params, h.modeRange, hwf, hslots, rfl⟩ rfl ?_ nofun
  exact ⟨.inl rfl, rfl, rfl, d.carr, d.enven, rfl, rfl, rfl, d.cur, rfl, d.envp, rfl⟩

theorem Invariant.execEdge_keeps {cnt : Word} (h : Invariant s) (hx : execEdge cnt s = .next t) : Invariant t := by
  obtain ⟨-, rfl⟩ | ⟨u, sl, n, old, vs, he, -, hh, rfl, hu, hend⟩ := h.execEdge_next hx
  · exact h
  · have hsucc : (n + 1).toNat = n.toNat + 1 := by
      rw [← hh.count, ← hu.count, List.length_append, List.length_singleton]
    obtain ⟨hlt, rfl⟩ | ⟨hfull, hd⟩ := hend
    · exact Standing.invariant_of_recording (h.standing rfl h.modeRange rfl h.locked) he
        ((h.recording he).after_append hh.ecnt hlt hsucc cnt _)
    · exact h.after_cdone he hu hfull.le hd

theorem Invariant.execTmo_keeps (h : Invariant s) (hx : execTmo s = .next t) : Invariant t := by
  obtain ⟨he, hd⟩ | ⟨-, rfl⟩ := execTmo_next hx
  · obtain ⟨sl, n, vs, hh, hlt, -⟩ := h.holds he
    exact h.after_cdone he hh hlt.le hd
  · exact h

/-! #### The Playback Engine -/

/-- PSTART is in period 0 of the slot's list (R121). -/
theorem Invariant.after_playFrom (h : Invariant s) (he : s.eng = .idle) (hc : s.copy = false) (hm : sl.m = s.mode)
    (hk : sl.k < s.cfg.nkeys) (hn : psLen s sl = .ok n) (hpos : 0 < n.toNat) (hv : psIvl s sl 0 = .ok v) :
    Invariant (setArb .playing (playFrom sl v s)) := by
  obtain ⟨m, k⟩ := sl
  cases hm
  have d := h.idle he
  refine Standing.invariant_of_playing (h.standing rfl h.modeRange rfl h.locked) rfl ?_
  exact {
    arb := rfl, owner := rfl, caparm := d.caparm, carr := rfl, enven := rfl, btnie := rfl, copy := hc
    ecnt := d.ecnt, oldc := d.oldc, rbuf := d.rbuf
    cursor := ⟨k, 1, n, v, hk, rfl, rfl, (psLen_congr rfl rfl).trans hn, le_rfl, hpos, (psIvl_congr rfl rfl).trans hv, rfl,
      (Bool.xor_false _).symm⟩ }

/-- Entering the next period flips the enable line's polarity (R53, R123). -/
theorem not_xor_odd_pred {j : Nat} (b : Bool) (hj : 1 ≤ j) :
    (!Bool.xor b (decide ((j - 1) % 2 = 1))) = Bool.xor b (decide (j % 2 = 1)) := by
  have hodd : decide (j % 2 = 1) = !decide ((j - 1) % 2 = 1) := by
    rw [← decide_not, decide_eq_decide]
    omega
  rw [hodd, Bool.xor_not]

/-- An envelope boundary before the end of the slot's list enters the cursor's period (R123). -/
theorem PlayingData.after_loadPeriod {i : Word} (d : PlayingData s) (hs : s.slot = some sl) (hi : s.cur = some i)
    (hn : psLen s sl = .ok n) (hlt : i.toNat < n.toNat) (hv : psIvl s sl i.toNat = .ok v) :
    PlayingData (loadPeriod v i s) := by
  obtain ⟨k, i', n', v', hk, hs', hi', hn', hpos, -, -, -, hout⟩ := d.cursor
  cases hs.symm.trans hs'
  cases hi.symm.trans hi'
  cases hn.symm.trans hn'
  have hsucc : (i + 1).toNat = i.toNat + 1 := by bv_omega
  have hperiod : (i + 1).toNat - 1 = i.toNat := by omega
  have hivl : psIvl (loadPeriod v i s) ⟨s.mode, k⟩ ((i + 1).toNat - 1) = .ok v := hperiod ▸ (psIvl_congr rfl rfl).trans hv
  have hflip : (loadPeriod v i s).outen = Bool.xor s.cfg.envInit (decide (((i + 1).toNat - 1) % 2 = 1)) := by
    rw [hperiod, loadPeriod_outen, hout]
    exact not_xor_odd_pred _ hpos
  exact { d with
    cursor := ⟨k, i + 1, n, v, hk, hs, rfl, (psLen_congr rfl rfl).trans hn, by omega, by omega, hivl, rfl, hflip⟩ }

/-- PDONE stops every channel and leaves no data register a value (R125). -/
theorem PlayingData.after_pdone (d : PlayingData s) : IdleData (pdone s) :=
  ⟨.inl rfl, rfl, d.caparm, rfl, rfl, rfl, rfl, d.ecnt, rfl, d.oldc, rfl, d.rbuf⟩

theorem Invariant.execEnv_keeps (h : Invariant s) (hx : execEnv s = .next t) : Invariant t := by
  obtain ⟨-, rfl⟩ | ⟨sl, i, n, he, hs, hi, hn, ⟨hlt, v, hv, rfl⟩ | ⟨-, rfl⟩⟩ := h.execEnv_next hx
  · exact h
  · exact Standing.invariant_of_playing (h.standing rfl h.modeRange rfl h.locked) he
      ((h.playing he).after_loadPeriod hs hi hn hlt hv)
  · exact Standing.invariant_of_idle (h.standing rfl h.modeRange rfl h.locked) rfl (h.playing he).after_pdone nofun

/-! #### The buttons -/

/-- A key out of range has no step (R88; log entry 8). -/
theorem exec_key_inRange {k : Word} (hx : exec (.key k) s = .next t) : k.toNat < s.cfg.nkeys := by
  by_contra hk
  cases (if_neg hk).symm.trans hx

theorem Invariant.nextMode_lt (h : Invariant s) : nextMode s < s.cfg.nmodes :=
  Nat.mod_lt _ (Nat.zero_lt_of_lt h.modeRange)

theorem ButtonNext.keeps (h : Invariant s) (hn : ButtonNext s i t) (hk : ∀ k, i = .key k → k.toNat < s.cfg.nkeys) :
    Invariant t := by
  cases hn with
  | dropped _ => exact h
  | ignored _ _ _ | stays _ _ _ => exact h.after_press
  | noCode _ _ _ _ => exact h.with_outputs .pressed (some .noCode) h.awakeDisplay
  | cancels hg _ ha hd =>
    have he := h.recording_of_buttonGate hg ha
    obtain ⟨sl, n, vs, hh, hlt, -⟩ := h.holds he
    exact h.after_cdone he hh.press hlt.le hd
  | records _ ha hc => exact h.after_press.after_cstart (h.idle_of_inIdle ha) hc rfl (hk _ rfl)
  | plays _ ha hc hlen hpos hv =>
    exact h.after_press.after_playFrom (h.idle_of_inIdle ha) hc rfl (hk _ rfl) ((psLen_congr rfl rfl).trans hlen) hpos
      ((psIvl_congr rfl rfl).trans hv)
  | toggles _ ha | leaves _ ha _ =>
    have he := h.idle_of_inIdle ha
    exact Standing.invariant_of_idle (h.standing rfl h.modeRange rfl h.locked) he { h.idle he with } h.awakeDisplay
  | advances _ ha =>
    have he := h.idle_of_inIdle ha
    exact Standing.invariant_of_idle (h.standing rfl h.nextMode_lt rfl h.locked) he { h.idle he with arb := .inr rfl }
      fun _ => rfl

/-! #### Every event -/

/-- POR is idle over the store held (R46, R161). -/
theorem Invariant.execPor_keeps (h : Invariant s) (hx : execPor s = .next t) : Invariant t := by
  have ⟨_, _, _, _, hmode, _⟩ := h.params
  cases hx
  exact Standing.invariant_of_idle (h.standing rfl hmode rfl rfl) rfl
    ⟨.inl rfl, rfl, rfl, rfl, rfl, rfl, rfl, rfl, rfl, rfl, rfl, rfl⟩ nofun

theorem Invariant.exec_keeps (h : Invariant s) (hx : exec i s = .next t) : Invariant t := by
  cases i with
  | por => exact h.execPor_keeps hx
  | settle =>
    cases hx
    exact h.with_outputs .ready s.disp h.awakeDisplay
  | sleep =>
    obtain ⟨-, rfl⟩ | ⟨-, rfl⟩ := execSleep_next hx
    · exact h.after_park
    · exact h
  | edge cnt => exact h.execEdge_keeps hx
  | env => exact h.execEnv_keeps hx
  | tmo => exact h.execTmo_keeps hx
  | key k => exact (execKey_next hx).keeps h fun k' e => Instr.key.inj e ▸ exec_key_inRange hx
  | copy | ok | mode => exact (exec_button_next rfl hx).keeps h nofun

end Keeps

/-- Settles O35: a step is an event from a state with less of the stream, and every event keeps the invariants. -/
theorem stepKeepsTheInvariants : Obligations.StepKeepsTheInvariants := by
  intro s t h hx
  obtain ⟨w, rest, i, -, -, hx⟩ := step_next hx
  exact (h.with_stream rest).exec_keeps hx

end Sys2Proof.Machine

/-! ### A playback advances by ENV alone (41_playback, the envelope boundary; 95_test_vectors Part 4) -/

namespace Sys2Proof.Machine

section Playback

variable {s t : State} {i : Instr}

/-- In a playback every event but ENV and POR touches the latch and the wake flag alone: SETTLE the one, SLEEP the other, and
the rest nothing (R204). -/
theorem PlayingData.exec_frame (d : PlayingData s) (he : s.eng = .playing) (hx : exec i s = .next t) (henv : i ≠ .env)
    (hpor : i ≠ .por) : t = { s with latch := t.latch, wake := t.wake } := by
  cases i with
  | env => exact absurd rfl henv
  | por => exact absurd rfl hpor
  | settle =>
    cases hx
    rfl
  | sleep =>
    obtain ⟨-, rfl⟩ | ⟨-, rfl⟩ := execSleep_next hx
    · simp [park, d.arb]
    · rfl
  | edge cnt =>
    cases (execEdge_unarmed d.caparm).symm.trans hx
    rfl
  | tmo =>
    obtain ⟨hrec, -⟩ | ⟨-, rfl⟩ := execTmo_next hx
    · cases he.symm.trans hrec
    · rfl
  | key _ | copy | ok | mode =>
    obtain rfl := (exec_button_next rfl hx).eq_of_closed (buttonGate_eq_false (.inl d.btnie))
    rfl

/-- Outside a recording no event changes the store (R67). -/
theorem Invariant.exec_ps (h : Invariant s) (he : s.eng ≠ .recording) (hx : exec i s = .next t) : t.ps = s.ps := by
  obtain hps | ⟨-, hrec, -⟩ := h.exec_store hx
  · exact hps
  · exact absurd hrec he

/-- ENV in a playback moves the cursor on by one, or ends the playback where the cursor is the slot's length (R123). -/
theorem Invariant.execEnv_cursor {sl : SlotRef} {n c : Word} (h : Invariant s) (he : s.eng = .playing)
    (hx : execEnv s = .next t) (hs : s.slot = some sl) (hn : psLen s sl = .ok n) (hc : s.cur = some c) :
    if c = n then t.eng = .idle else t.eng = .playing ∧ t.cur = some (c + 1) := by
  obtain ⟨hoff, -⟩ | ⟨sl', c', n', -, hs', hc', hn', hend⟩ := h.execEnv_next hx
  · cases (h.playing he).enven.symm.trans hoff
  · cases hs.symm.trans hs'
    cases hc.symm.trans hc'
    cases hn.symm.trans hn'
    obtain ⟨hlt, v, -, rfl⟩ | ⟨hlast, rfl⟩ := hend
    · rw [if_neg fun e => hlt.ne (congrArg BitVec.toNat e)]
      exact ⟨he, rfl⟩
    · rw [if_pos (BitVec.eq_of_toNat_eq hlast)]
      rfl

end Playback

/-- Settles O33: the store changes in a recording alone, ENV moves the cursor, and the other events leave the playback. -/
theorem playbackAdvancesOnlyByEnv : Obligations.PlaybackAdvancesOnlyByEnv := by
  intro s t i h he hpor hx
  refine ⟨h.exec_ps (by simp [he]) hx, fun henv => (h.playing he).exec_frame he hx henv hpor, ?_⟩
  rintro rfl sl n c hs hn hc
  exact h.execEnv_cursor he hx hs hn hc

end Sys2Proof.Machine

/-! ### Words of the vector table, and words delivered (95_test_vectors section 2.1; 10_state R43) -/

namespace Sys2Proof.Machine

/-- Settles O1: each word's fields choose its row of the opcode map or its refusal. -/
theorem vectorWordsDecodeAsListed : Obligations.VectorWordsDecodeAsListed :=
  ⟨rfl, rfl, rfl, rfl, rfl, rfl, rfl, rfl, rfl, rfl, rfl, rfl, rfl, rfl, rfl⟩

/-- A word given by its number in 32 bits is delivered as itself (log entry 1). -/
theorem withFetchWord_toNat (s : State) (w : EventWord) : s.withFetchWord 32 w.toNat = deliverWord w s := by
  rw [State.withFetchWord, Nat.mod_eq_of_lt w.isLt, BitVec.ofNat_toNat, BitVec.setWidth_eq]

/-- Settles O7: the word delivered is fetched next and decodes to its event, and an empty stream has no next word. -/
theorem deliveredEventRunsNext : Obligations.DeliveredEventRunsNext := by
  refine ⟨fun s i hi => ?_, fun s hs => by simp [step, fetchWord, hs]⟩
  rw [withFetchWord_toNat]
  exact stepRunsTheDecodedEvent _ (encode i) s.stream i rfl (decodeOfEncodeIsTheEvent s.cfg i hi)

end Sys2Proof.Machine
